-- ==== Sys2Proof/Word.lean ====
section
/-! DEFINITION. The word types of the byte-transactor. Bits are numbered 7 (most significant, first on the wire)
down to 0 (spec/00_scope.md section 5). -/

namespace Sys2Proof

/-- An unsigned 8-bit value, the only width the block moves (R9, R15). -/
abbrev Byte := BitVec 8

/-- A device register address as the command byte carries it, 0x00 to 0x3F (R31, R48). -/
abbrev RegAddr := BitVec 6

/-- A 16-bit word of the measurement registers (R37). -/
abbrev Half := BitVec 16

/-- The bit pattern of an IEEE-754 single-precision value (R103, R106). -/
abbrev Single := BitVec 32

end Sys2Proof
end

