-- ==== Sys2Proof/Syntax.lean ====
section
/-! DEFINITION. The instructions: one constructor for each row of spec/opcode_table.json (R47, R57), and the vocabulary
of operands and results they share. -/

namespace Sys2Proof

/-- The three bus fault kinds, in priority order (R121 to R124, R139). -/
inductive FaultKind where
  | overrun
  | modeFault
  | checksumError
deriving DecidableEq, Repr, Inhabited

/-- The ordinals R127 gives the fault kinds, for naming only; `BusOutcome.code` and `InitResult.code` give the other outcomes
theirs. -/
def FaultKind.code : FaultKind → Nat
  | .overrun => 1
  | .modeFault => 2
  | .checksumError => 3

/-- One snapshot of the five status flags (R21). -/
structure Snapshot where
  overrun : Bool
  modeFault : Bool
  checksumError : Bool
  txReady : Bool
  rxReady : Bool
deriving DecidableEq, Repr, Inhabited

/-- `BusOutcome<T>`: the three-way result of one attempt (spec/00_scope.md section 5). -/
inductive BusOutcome (α : Type) where
  | ready (v : α)
  | notYetReady
  | fault (k : FaultKind)
deriving DecidableEq, Repr

/-- The ordinal of an attempt's outcome: a fault has its kind's, the other two have none (R127). -/
def BusOutcome.code {α : Type} : BusOutcome α → Option Nat
  | .ready _ => none
  | .notYetReady => none
  | .fault k => some k.code

/-- `Result<T, Fault>`: the result of a blocking operation, which is never NotYetReady (R82). -/
inductive Res (α : Type) where
  | ok (v : α)
  | err (k : FaultKind)
deriving DecidableEq, Repr

/-- The instructions. The four wire forms carry the bytes that follow the command byte (R88 to R91); a register
address of `write` and `read` is any natural number, since one above 0x3F is refused and never masked (R51). -/
inductive Instr where
  /-- `WR1`, `00aaaaaa` and one payload byte (R88). -/
  | wr1 (a : RegAddr) (p : Byte)
  /-- `WRM`, `01aaaaaa` and two or more payload bytes (R89). -/
  | wrm (a : RegAddr) (ps : List Byte)
  /-- `RD1`, `10aaaaaa` and one filler (R90). -/
  | rd1 (a : RegAddr)
  /-- `RDM`, `11aaaaaa` and `n` fillers, two or more (R91). -/
  | rdm (a : RegAddr) (n : Nat)
  /-- `SELECT_ASSERT` (R61). -/
  | selectAssert
  /-- `SELECT_DEASSERT` (R62). -/
  | selectDeassert
  /-- `ATTEMPT_SEND b` (R63). -/
  | attemptSend (b : Byte)
  /-- `ATTEMPT_RECEIVE` (R64). -/
  | attemptReceive
  /-- `EXCHANGE bytes_out keep` (R71). -/
  | exchange (bytesOut : List Byte) (keep : List Bool)
  /-- `WRITE addr, payload` (R86). -/
  | write (addr : Nat) (payload : List Byte)
  /-- `READ addr, n` (R87). -/
  | read (addr : Nat) (n : Nat)
deriving DecidableEq, Repr

/-- `EXCHANGE` with `keep` omitted: all ones (R71). -/
def Instr.exchangeAll (bytesOut : List Byte) : Instr :=
  .exchange bytesOut (List.replicate bytesOut.length true)

/-- The four forms that have bits (R47); the seven operations have none (R57). -/
def Instr.isWire : Instr → Bool
  | .wr1 _ _ => true
  | .wrm _ _ => true
  | .rd1 _ => true
  | .rdm _ _ => true
  | .selectAssert => false
  | .selectDeassert => false
  | .attemptSend _ => false
  | .attemptReceive => false
  | .exchange _ _ => false
  | .write _ _ => false
  | .read _ _ => false

/-! The documented host software's vocabulary (spec/43_host_software.md). -/

/-- The three full-scale ranges, of which the source names one (R104). -/
inductive SensitivityScale where
  | dps250
  | second
  | third
deriving DecidableEq, Repr, Inhabited

/-- DeviceConfig: one of 4 rates, one of 4 cutoffs, the interrupt-enable flag and the scale; the pairing of rate and
cutoff is not validated (R107, R119). -/
structure DeviceConfig where
  dataRate : Fin 4
  cutoff : Fin 4
  interruptEnabled : Bool
  scale : SensitivityScale
deriving DecidableEq, Repr, Inhabited

/-- The operations the DeviceController exposes (R118). -/
inductive HostCall where
  /-- `initialize(config)` (R108). -/
  | initDevice (cfg : DeviceConfig)
  /-- `read_status()` (R115). -/
  | readStatus
  /-- `read_measurement(scale)` (R116). -/
  | readMeasurement (scale : SensitivityScale)
deriving DecidableEq, Repr

/-- One request of the host agent (R12). -/
inductive Request where
  /-- the frames of one wire transaction, as bytes, to be decoded (R54, R56) -/
  | frames (bytes : List Byte)
  /-- one of the block's operations (R57) -/
  | op (i : Instr)
  /-- a call of the DeviceController (R118) -/
  | call (c : HostCall)
  /-- disabling or enabling the interrupt source at the platform (R136 (a)) -/
  | setInterrupt (on : Bool)
deriving DecidableEq, Repr

/-- Status: eight independent flags (R102). -/
structure Status where
  sensorOverrun : Bool
  zOverrun : Bool
  yOverrun : Bool
  xOverrun : Bool
  newData : Bool
  zNew : Bool
  yNew : Bool
  xNew : Bool
deriving DecidableEq, Repr

/-- Measurement: three single-precision values in radians per second (R103). -/
structure Measurement where
  x : Single
  y : Single
  z : Single
deriving DecidableEq, Repr

/-- `Result<(), InitError>` of `initialize` (R108, R126). -/
inductive InitResult where
  | ok
  | identityMismatch
  | fault (k : FaultKind)
deriving DecidableEq, Repr

/-- The ordinal of the outcome of `initialize`: a fault has its kind's, `IdentityMismatch` has 4, success has none (R127). -/
def InitResult.code : InitResult → Option Nat
  | .ok => none
  | .identityMismatch => some 4
  | .fault k => some k.code

/-- What an operation returns to the context that requested it (R57, R118). The two select operations return nothing. -/
inductive Result where
  | send (o : BusOutcome Unit)
  | receive (o : BusOutcome Byte)
  | exchange (r : Res (List Byte))
  | write (r : Res Unit)
  | read (r : Res (List Byte))
  | init (r : InitResult)
  | status (r : Res Status)
  | measurement (r : Res Measurement)
deriving DecidableEq, Repr

end Sys2Proof
end

