-- ==== Sys2Proof/Config.lean ====
section
/-! DEFINITION. What an implementation fixes and what the spec leaves open (R9, R10). An `opaque` constant has no body:
no proof can see its value, so a theorem holds whatever it is. -/

namespace Sys2Proof

namespace Config

/-! Fixed by the source (R9, R24); most significant bit first is `wireBits` of Machine/Operands.lean (R35). -/

/-- Bits of one bus frame (R9). -/
def frameBits : Nat := 8
/-- The highest device register address (R31). -/
def lastAddr : Nat := 0x3F
/-- The clock line rests high (R9). -/
def clockIdleHigh : Bool := true
/-- Data is sampled on the second edge of each pulse (R9). -/
def sampleSecondEdge : Bool := true
/-- The level of the deasserted select line (R9, R18). -/
def selectIdleHigh : Bool := true
/-- The filler byte of a READ, conventionally zero. DESIGN CHOICE of the spec, D7; log 4. -/
def fill : Byte := 0x00

/-! Free values: every one is applied to the counter `draws` of State, or to the operands it depends on. -/

/-- The flags the k-th draw of the oracle answers (R22). Safe; log 9. -/
opaque drawFlags : Nat → Snapshot
/-- The byte the k-th draw of the oracle answers to DataRead (R15, R64). Safe; log 9. -/
opaque drawByte : Nat → Byte
/-- A slot of the caller's buffer after a failed READ (R94). Safe; log 12. -/
opaque drawSlot : Nat → Byte
/-- Whether new data arrive before this step (R134). Safe; log 11. -/
opaque drawNewData : Nat → Bool
/-- Whether this read of a measurement byte already clears data-ready (R40, N22). Safe; log 10. -/
opaque drawCleared : Nat → Bool
/-- Whether a byte written to the interrupt-control register enables the data-ready interrupt, when it begins no payload that
enables it (R107, R134; `enablesDataReady` of Machine/Ops.lean). Safe; log 10. -/
opaque drdyEnables : Byte → Bool
/-- What a device register that nothing has written holds (R29). Safe; log 8. -/
opaque regPowerOn : RegAddr → Byte

/-! The payloads of the three configuration writes: a first byte and the rest, since each is non-empty (R107). Log 18. -/

/-- `enc_interrupt` (R107). -/
opaque encInterrupt : DeviceConfig → Byte × List Byte
/-- `enc_range` (R107). -/
opaque encRange : DeviceConfig → Byte × List Byte
/-- `enc_primary` (R107). -/
opaque encPrimary : DeviceConfig → Byte × List Byte

/-- A constant for one of the two ranges the source does not name (R104, N8); `mdpsPerLsb` of Machine/Operands.lean keeps it
when it is usable. Safe; log 26. -/
opaque mdpsSecond : Rat
/-- A constant for the other range the source does not name (R104, N8), likewise. -/
opaque mdpsThird : Rat

/-- `π` to twenty decimals, far beyond the precision of any result (R105; log 17). -/
def piNear : Rat := 314159265358979323846 / 10 ^ 20

/-- The relative error the evaluation of `mdps * 1e-3 * (π/180)` makes, in steps of 2^-24 and from -8 to 8: its precision
and its order are not in the source (R105, R106, D21). Safe within these bounds; log 17. -/
opaque factorError : SensitivityScale → Fin 17

/-- F_SCK; no rule reads it (R10, R158). -/
opaque busClockHz : Nat

/-! The open parameters as the reset state draws them (R10, D9); `Params.atReset` keeps them when they are what R10 asks for.
Log 3. -/

/-- A_IDENTITY -/
opaque addrIdentity : RegAddr
/-- A_CTRL_PRIMARY -/
opaque addrCtrlPrimary : RegAddr
/-- A_CTRL_INTERRUPT -/
opaque addrCtrlInterrupt : RegAddr
/-- A_CTRL_RANGE -/
opaque addrCtrlRange : RegAddr
/-- A_TEMPERATURE -/
opaque addrTemperature : RegAddr
/-- A_STATUS -/
opaque addrStatus : RegAddr
/-- A_AXIS0_LOW -/
opaque addrAxis0Low : RegAddr
/-- DEVICE_ID -/
opaque deviceId : Byte

end Config

/-- The parameters of the step relation that R10 leaves open and that a run must be able to fix: State carries them and no
step changes them, so a statement about every state is a statement about every assignment (log 3). -/
structure Params where
  /-- MAX_LEN -/
  maxLen : Nat
  aIdentity : RegAddr
  aCtrlPrimary : RegAddr
  aCtrlInterrupt : RegAddr
  aCtrlRange : RegAddr
  aTemperature : RegAddr
  aStatus : RegAddr
  aAxis0Low : RegAddr
  deviceId : Byte
  /-- DUMMY of the reference environment (R164) -/
  dummy : Byte
deriving DecidableEq, Repr

/-- The seven named locations (R32). -/
def Params.named (p : Params) : List RegAddr :=
  [p.aIdentity, p.aCtrlPrimary, p.aCtrlInterrupt, p.aCtrlRange, p.aTemperature, p.aStatus, p.aAxis0Low]

/-- What R10 and R34 ask of the parameters. -/
def Params.wellFormed (p : Params) : Bool :=
  decide (1 ≤ p.maxLen) && decide p.named.Nodup && decide (p.aAxis0Low.toNat + 5 ≤ Config.lastAddr)

/-- Free values for the open parameters, with MAX_LEN 64, the address-space bound (DESIGN CHOICE, log 3), and DUMMY its
default of R164. -/
def Params.drawn : Params :=
  { maxLen := 64
    aIdentity := Config.addrIdentity
    aCtrlPrimary := Config.addrCtrlPrimary
    aCtrlInterrupt := Config.addrCtrlInterrupt
    aCtrlRange := Config.addrCtrlRange
    aTemperature := Config.addrTemperature
    aStatus := Config.addrStatus
    aAxis0Low := Config.addrAxis0Low
    deviceId := Config.deviceId
    dummy := 0xFF }

/-- Addresses that are what R10 and R34 ask for, so that some always are. They stand for nothing: no proof can tell whether
the reset state has these or the drawn ones (log 3). -/
def Params.fallback : Params :=
  { Params.drawn with
    aIdentity := 0
    aCtrlPrimary := 1
    aCtrlInterrupt := 2
    aCtrlRange := 3
    aTemperature := 4
    aStatus := 5
    aAxis0Low := 6 }

/-- The parameters of the reset state: the drawn ones when they are well formed (R10), so that they always are; MAX_LEN and
DUMMY are the same in both (log 3). -/
def Params.atReset : Params :=
  { (if Params.drawn.wellFormed then Params.drawn else Params.fallback) with maxLen := 64, dummy := 0xFF }

end Sys2Proof
end

