-- ==== Sys2Proof/WellFormed.lean ====
section
/-! DEFINITION. When an instruction is one the block can be asked for: the admission conditions of R72 and R92 that
look at operands only, each failing under the name its rule gives it. -/

namespace Sys2Proof

/-- The reasons for which an instruction is refused by its operands alone. -/
inductive RequestError where
  /-- `address_out_of_range` (R51) -/
  | addressOutOfRange
  /-- `empty_payload` (R93) -/
  | emptyPayload
  /-- `too_long` (R72, R92) -/
  | tooLong
  /-- `pointer_wrap` (R36, R92) -/
  | pointerWrap
  /-- `malformed_request` (R72) -/
  | malformedRequest
  /-- MB = 1 with fewer than two data bytes, which is not a request the block can make (R55) -/
  | formMismatch
deriving DecidableEq, Repr

/-- The conditions of a register access of `n` bytes at `a`, in the order of R92. -/
def checkAccess (maxLen a n : Nat) : Option RequestError :=
  if a > Config.lastAddr then some .addressOutOfRange
  else if n = 0 then some .emptyPayload
  else if n > maxLen then some .tooLong
  else if a + n - 1 > Config.lastAddr then some .pointerWrap
  else none

/-- The first check an instruction fails. -/
def Instr.check (maxLen : Nat) : Instr → Option RequestError
  | .wr1 a _ => checkAccess maxLen a.toNat 1
  | .wrm a ps => if ps.length < 2 then some .formMismatch else checkAccess maxLen a.toNat ps.length
  | .rd1 a => checkAccess maxLen a.toNat 1
  | .rdm a n => if n < 2 then some .formMismatch else checkAccess maxLen a.toNat n
  | .selectAssert => none
  | .selectDeassert => none
  | .attemptSend _ => none
  | .attemptReceive => none
  | .exchange out keep =>
      if keep.length ≠ out.length then some .malformedRequest
      else if out.length > maxLen + 1 then some .tooLong
      else none
  | .write a p => checkAccess maxLen a p.length
  | .read a n => checkAccess maxLen a n

/-- An instruction that passes every check. -/
def Instr.wellFormed (maxLen : Nat) (i : Instr) : Bool := (i.check maxLen).isNone

end Sys2Proof
end

