-- ==== Sys2Proof/Decode.lean ====
section
/-! DEFINITION. The command byte (R47 to R51, R54), the frames of a wire transaction (R52, R56), their decoder, and after
it the encoder (R85, R88 to R91). -/

namespace Sys2Proof

/-- The four command forms (R47). -/
inductive CmdForm where
  | wr1 | wrm | rd1 | rdm
deriving DecidableEq, Repr

/-- Field DIR, bit 7: 1 is a read (R49). -/
def cmdDir (c : Byte) : Bool := c.getLsbD 7

/-- Field MB, bit 6 (R50). -/
def cmdMulti (c : Byte) : Bool := c.getLsbD 6

/-- Field ADDR, bits 5 to 0 (R51). -/
def cmdAddr (c : Byte) : RegAddr := c.extractLsb' 0 6

/-- One row of the table of command forms: a byte is of the form when it agrees with `value` under `mask` (R54). -/
structure CmdRow where
  form : CmdForm
  value : Byte
  mask : Byte
deriving DecidableEq, Repr

/-- The four rows (R54). -/
def cmdRows : List CmdRow :=
  [⟨.wr1, 0x00, 0xC0⟩, ⟨.wrm, 0x40, 0xC0⟩, ⟨.rd1, 0x80, 0xC0⟩, ⟨.rdm, 0xC0, 0xC0⟩]

/-- Decoding a command byte, total on all 256 values (R54). -/
def decodeCommand (c : Byte) : CmdForm × RegAddr :=
  (if cmdDir c then (if cmdMulti c then .rdm else .rd1) else (if cmdMulti c then .wrm else .wr1), cmdAddr c)

/-- Why the frames of a transaction are none of the four forms (R55). -/
inductive DecodeError where
  /-- no frame at all: a select pulse alone -/
  | noCommand
  /-- the command byte alone, with no data frame -/
  | noData
  /-- MB = 1 with exactly one data byte -/
  | multiWithOne
  /-- MB = 0 with more than one data byte -/
  | singleWithMany
deriving DecidableEq, Repr

/-- The instruction the frames of one select pulse stand for: the command byte, then the data frames up to the
deassertion (R52, R56). The fillers of a read are not looked at (R87). -/
def decodeFrames : List Byte → Except DecodeError Instr
  | [] => .error .noCommand
  | _ :: [] => .error .noData
  | c :: d :: [] =>
      match decodeCommand c with
      | (.wr1, a) => .ok (.wr1 a d)
      | (.rd1, a) => .ok (.rd1 a)
      | (.wrm, _) => .error .multiWithOne
      | (.rdm, _) => .error .multiWithOne
  | c :: d :: e :: ds =>
      match decodeCommand c with
      | (.wrm, a) => .ok (.wrm a (d :: e :: ds))
      | (.rdm, a) => .ok (.rdm a (ds.length + 2))
      | (.wr1, _) => .error .singleWithMany
      | (.rd1, _) => .error .singleWithMany

/-- The first `k` bytes of `w`, least significant first: the bit numbering of spec/opcode_table.json. -/
def bytesOfNat : Nat → Nat → List Byte
  | 0, _ => []
  | k + 1, w => BitVec.ofNat 8 w :: bytesOfNat k (w / 256)

/-- A table row's bits as frames: its bytes, then data frames of zeros up to the fewest its form takes, one when
MB = 0 and two when MB = 1 (log 22). -/
def tableFrames (nbits w : Nat) : List Byte :=
  match bytesOfNat (nbits / 8) w with
  | [] => []
  | c :: data => c :: (data ++ List.replicate ((if cmdMulti c then 2 else 1) - data.length) 0)

/-- The instruction the decoder reads from a table row's bits; none for the seven operations, which have no bits (R57). -/
def decodeTableWord (nbits w : Nat) : Option Instr :=
  match decodeFrames (tableFrames nbits w) with
  | .ok i => some i
  | .error _ => none

/-- `encode_cmd(dir, n, a)` (R85): the direction bit, the multi-byte bit set when `n > 1`, the address. -/
def encodeCmd (dir : Bool) (n : Nat) (a : RegAddr) : Byte :=
  ((BitVec.ofBool dir).setWidth 8 <<< 7) ||| ((BitVec.ofBool (decide (1 < n))).setWidth 8 <<< 6) ||| a.setWidth 8

/-- The frames of a wire form (R88 to R91); nothing for an operation, which has no encoding (R57). -/
def encode : Instr → List Byte
  | .wr1 a p => (0x00 ||| a.setWidth 8) :: [p]
  | .wrm a ps => (0x40 ||| a.setWidth 8) :: ps
  | .rd1 a => (0x80 ||| a.setWidth 8) :: [Config.fill]
  | .rdm a n => (0xC0 ||| a.setWidth 8) :: List.replicate n Config.fill
  | .selectAssert => []
  | .selectDeassert => []
  | .attemptSend _ => []
  | .attemptReceive => []
  | .exchange _ _ => []
  | .write _ _ => []
  | .read _ _ => []

end Sys2Proof
end

