-- ==== Sys2Proof/Machine/State.lean ====
section
/-! DEFINITION. The state of the transactor, of the bus peripheral, of the device, of the environment and of the host, as
plain data, and its reset value (R14 to R30, R161 to R163). -/

namespace Sys2Proof.Machine

/-- Why the machine stops with a fault. The bus faults of R121 are results, not these. -/
inductive Fault where
  /-- The scripted environment has no answer left: a test error (R166). Raised by StatusRead and DataRead. Safe: nothing
  is proved of a run past its script. -/
  | scriptExhausted
  /-- The sequencer, or a DeviceController call, stands where no run can bring it: a position with no latched byte, or a
  wait for a result that was not delivered. Raised by the sequencer and by the host's calls. Safe: R80 gives a row for
  every state a run reaches. -/
  | sequencerOutOfStep
deriving DecidableEq, Repr

/-- Why a request has no meaning: the spec's `refuse(reason)` (R121). Every one is safe: the model stops where the
hardware would go on in a way the source does not describe. -/
inductive Refusal where
  /-- An instruction with no meaning in the model. Raised by `exec` alone. Safe. -/
  | notModelled (mnemonic : String)
  /-- The operands fail a check (R51, R72, R92, R93), or the reference device was sent a frame past its last address
  (R164). Raised by the admission of EXCHANGE, WRITE, READ and the wire forms, and by the reference device. Safe. -/
  | badRequest (why : RequestError)
  /-- The frames requested are none of the four wire forms (R55). Raised by the host's step. Safe. -/
  | badFrames (why : DecodeError)
  /-- The select line is not configured yet (R61, R62, R72). Raised by every framing operation. Safe. -/
  | selectNotConfigured
  /-- A transaction is in flight (R72, R132, R167). Raised by every operation. Safe. -/
  | reentrantExchange
  /-- A DeviceController read before a successful initialisation (R117). Raised by the host's calls. Safe. -/
  | notInitialized
  /-- The reference device was sent a frame while it is not selected (R163). Raised by the reference device. Safe. -/
  | frameWhileIdle
deriving DecidableEq, Repr

/-- The level on the select line (R18); asserted is electrically low. -/
inductive SelectLevel where
  | asserted
  | deasserted
deriving DecidableEq, Repr

/-- The electrical level, true for high (R18). -/
def SelectLevel.high : SelectLevel → Bool
  | .asserted => !Config.selectIdleHigh
  | .deasserted => Config.selectIdleHigh

/-- The sequencer position (R16); `Idle` has no position. -/
inductive Seq where
  | idle
  | send (pos : Nat)
  | recv (pos : Nat)
  | close (pos : Nat)
deriving DecidableEq, Repr

/-- The two execution contexts of the host (R135). -/
inductive Context where
  | ordinary
  | handler
deriving DecidableEq, Repr

/-- Which operation waits for the EXCHANGE in flight (R59, R86, R87). -/
inductive Caller where
  | exchange
  | write
  | read (n : Nat)
deriving DecidableEq, Repr

/-- A call of a capability primitive, as it reached the hardware (R46). -/
inductive Call where
  | statusRead (f : Snapshot)
  | dataWrite (b : Byte)
  | dataRead (v : Byte)
  | selectAssert
  | selectDeassert
deriving DecidableEq, Repr

/-- The bus peripheral: the flags and the data register (R21, R23), and the reference peripheral's own (R161). -/
structure Peripheral where
  flags : Snapshot
  txByte : Byte
  rxByte : Byte
  rxFull : Bool
  ovr : Bool
  delayTx : Nat
  delayRx : Nat
  waitTx : Nat
  waitRx : Nat
deriving DecidableEq, Repr

/-- The device register space: the locations that have been written, addresses strictly rising. An unlisted location has
no stored value and reads as a free value (R29, R31; log 8). -/
abbrev Memory := List Host.Cell

/-- The canonical form: addresses strictly rising and none above 0x3F (R31). -/
def Memory.wf : Memory → Bool
  | [] => true
  | [c] => decide (c.1 ≤ Config.lastAddr)
  | c :: d :: rest => decide (c.1 < d.1) && Memory.wf (d :: rest)

/-- The device's view of a transaction (R163). -/
inductive DevPhase where
  | idle
  | awaitCmd
  | data
  | exhausted
deriving DecidableEq, Repr

/-- The device (R26, R163). -/
structure Device where
  regs : Memory
  phase : DevPhase
  dir : Bool
  multi : Bool
  ptr : RegAddr
  first : RegAddr
  powered : Bool
  drdyEnabled : Bool
  dataReady : Bool
deriving DecidableEq, Repr

/-- Which environment answers (R12): any answer, the reference one, or a script. -/
inductive EnvMode where
  | oracle
  | scripted
  | reference
deriving DecidableEq, Repr

/-- The answers of the scripted environment, in call order (R166). -/
structure Script where
  snapshots : List Snapshot
  bytes : List Byte
deriving DecidableEq, Repr

/-- The DeviceController's state (R27). -/
inductive ControllerState where
  | uninitialized
  | ready
deriving DecidableEq, Repr

/-- Where a DeviceController call stands: the transaction it has in flight (R109 to R116). -/
inductive CallStage where
  | initStart (cfg : DeviceConfig)
  | initIdentity (cfg : DeviceConfig)
  | initInterrupt (cfg : DeviceConfig)
  | initRange (cfg : DeviceConfig)
  | initPrimary (cfg : DeviceConfig)
  | status
  | measurement (scale : SensitivityScale)
deriving DecidableEq, Repr

/-- One execution context of the host: the requests it has yet to make, the call it is inside, what its last operation
returned, and its read buffer. -/
structure Thread where
  todo : List Request
  call : Option CallStage
  result : Option Result
  buffer : List Byte
deriving DecidableEq, Repr

/-- The host (R27, R134, R135). -/
structure HostState where
  ctl : ControllerState
  context : Context
  ordinary : Thread
  handler : Thread
  isr : List Request
  irq : Bool
  irqOn : Bool
deriving DecidableEq, Repr

/-- The whole machine. -/
structure State where
  selCfg : Bool
  sel : SelectLevel
  busy : Bool
  seq : Seq
  res : Option FaultKind
  n : Nat
  out : List Byte
  keep : List Bool
  inb : List Byte
  caller : Caller
  owner : Context
  per : Peripheral
  dev : Device
  env : EnvMode
  script : Script
  draws : Nat
  calls : List Call
  host : HostState
  par : Params
deriving DecidableEq, Repr

/-- A context that has nothing to do and was told nothing. -/
def Thread.empty : Thread := { todo := [], call := none, result := none, buffer := [] }

/-- The peripheral at the start of a run (R161; flags and transmit byte: log 7). -/
def Peripheral.atReset : Peripheral :=
  { flags := ⟨false, false, false, false, false⟩
    txByte := 0
    rxByte := 0
    rxFull := false
    ovr := false
    delayTx := 0
    delayRx := 0
    waitTx := 0
    waitRx := 0 }

/-- The device at the start of a run: sensing elements off (R143), unselected. R163 says the latter of the reference device;
that any other device is unselected at power-on, too, so that a frame sent before step 1 has no effect on it, is the model's
choice, as are the rest of the values (R26, R29, R143; log 7). -/
def Device.atReset : Device :=
  { regs := []
    phase := .idle
    dir := false
    multi := false
    ptr := 0
    first := 0
    powered := false
    drdyEnabled := false
    dataReady := false }

/-- The host before its first request (R29; log 6, log 11). -/
def HostState.atReset : HostState :=
  { ctl := .uninitialized
    context := .ordinary
    ordinary := Thread.empty
    handler := Thread.empty
    isr := []
    irq := false
    irqOn := false }

/-- The machine right after power-on (R29, R142); what R29 leaves unspecified is named in logs 5, 6 and 7. -/
def State.reset : State :=
  { selCfg := false
    sel := .deasserted
    busy := false
    seq := .idle
    res := none
    n := 0
    out := []
    keep := []
    inb := []
    caller := .exchange
    owner := .ordinary
    per := Peripheral.atReset
    dev := Device.atReset
    env := .oracle
    script := ⟨[], []⟩
    draws := 0
    calls := []
    host := HostState.atReset
    par := Params.atReset }

/-- The state of one execution context. -/
def State.thread (s : State) : Context → Thread
  | .ordinary => s.host.ordinary
  | .handler => s.host.handler

/-- The state with one context's record replaced. -/
def State.setThread (s : State) (c : Context) (t : Thread) : State :=
  match c with
  | .ordinary => { s with host := { s.host with ordinary := t } }
  | .handler => { s with host := { s.host with handler := t } }

end Sys2Proof.Machine
end

