-- ==== Sys2Proof/Machine/Flags.lean ====
section
/-! DEFINITION. The status flags: the classification of one snapshot (R65, R67, R69). -/

namespace Sys2Proof.Machine

/-- `classify(f, ready)` (R65): overrun, then mode fault, then checksum error, then ready, then not ready. -/
def classify (f : Snapshot) (ready : Bool) : BusOutcome Unit :=
  if f.overrun then .fault .overrun
  else if f.modeFault then .fault .modeFault
  else if f.checksumError then .fault .checksumError
  else if ready then .ready ()
  else .notYetReady

/-- What ATTEMPT_SEND makes of a snapshot: its ready flag is `txReady` (R67). -/
def classifySend (f : Snapshot) : BusOutcome Unit := classify f f.txReady

/-- What ATTEMPT_RECEIVE makes of a snapshot: its ready flag is `rxReady` (R67). -/
def classifyReceive (f : Snapshot) : BusOutcome Unit := classify f f.rxReady

/-- The snapshot the reference peripheral shows (R161). -/
def referenceFlags (p : Peripheral) : Snapshot :=
  { overrun := p.ovr
    modeFault := false
    checksumError := false
    txReady := p.waitTx == 0
    rxReady := p.rxFull && p.waitRx == 0 }

end Sys2Proof.Machine
end

