-- ==== Sys2Proof/Machine/Operands.lean ====
section
/-! DEFINITION. Operand forms: the bytes and keep masks of WRITE and READ (R86, R87), the bits of a frame on the wire
(R35, R53), and the words and numbers the host makes of received bytes (R37, R102, R103, R106). -/

namespace Sys2Proof.Machine

/-- The bytes a WRITE sends: the command byte and the payload (R52, R86). -/
def writeFrames (a : RegAddr) (payload : List Byte) : List Byte := encodeCmd false payload.length a :: payload

/-- The keep mask of a WRITE of `n` bytes: nothing is kept (R86). -/
def writeKeep (n : Nat) : List Bool := List.replicate (n + 1) false

/-- The bytes a READ sends: the command byte and one filler a byte wanted (R52, R87). -/
def readFrames (a : RegAddr) (n : Nat) : List Byte := encodeCmd true n a :: List.replicate n Config.fill

/-- The keep mask of a READ of `n` bytes: all but the command frame's byte (R87). -/
def readKeep (n : Nat) : List Bool := false :: List.replicate n true

/-! The wire frame. No operation rule depends on it (R11, R53); log 28. -/

/-- The bits of a byte in the order they go on the wire, bit 7 first (R35). -/
def wireBits (b : Byte) : List Bool :=
  [b.getLsbD 7, b.getLsbD 6, b.getLsbD 5, b.getLsbD 4, b.getLsbD 3, b.getLsbD 2, b.getLsbD 1, b.getLsbD 0]

/-- Shifting one bit into a receiver, most significant first (R35). -/
def shiftIn (acc : Byte) (bit : Bool) : Byte := (acc <<< 1) ||| (BitVec.ofBool bit).setWidth 8

/-- The byte a receiver holds after the bits of one frame (R35). -/
def ofWireBits (bits : List Bool) : Byte := bits.foldl shiftIn 0

/-- The lines at one edge of the clock: its level after the edge, and the two data lines (R24, R53). -/
structure WireEdge where
  clock : Bool
  dataOut : Bool
  dataIn : Bool
deriving DecidableEq, Repr

/-- The two edges of each of the eight pulses of a frame: the line idles high, so the first edge falls and the second
rises (R53). -/
def frameEdges (master device : Byte) : List WireEdge :=
  ((wireBits master).zip (wireBits device)).flatMap fun p =>
    [⟨!Config.clockIdleHigh, p.1, p.2⟩, ⟨Config.clockIdleHigh, p.1, p.2⟩]

/-- The edges both sides sample at: the second edge of each pulse, the rising one (R53). -/
def sampledEdges (es : List WireEdge) : List WireEdge := 
  es.filter fun e => e.clock == (if Config.sampleSecondEdge then Config.clockIdleHigh else !Config.clockIdleHigh)

/-! The host's data formats. -/

/-- `decode_status` (R102). -/
def decodeStatus (b : Byte) : Status :=
  { sensorOverrun := b.getLsbD 7
    zOverrun := b.getLsbD 6
    yOverrun := b.getLsbD 5
    xOverrun := b.getLsbD 4
    newData := b.getLsbD 3
    zNew := b.getLsbD 2
    yNew := b.getLsbD 1
    xNew := b.getLsbD 0 }

/-- A little-endian word: low byte first (R37, R103). -/
def wordOf (low high : Byte) : Half := (high.setWidth 16 <<< 8) ||| low.setWidth 16

/-- `as_signed16` (spec/00_scope.md section 5). -/
def asSigned16 (w : Half) : Int := if w.toNat < 0x8000 then (w.toNat : Int) else (w.toNat : Int) - 0x10000

/-- The single-precision pattern of `m * 2^e`, rounded to nearest, ties to even; PRESUMED, log 17. -/
def singleRound (neg : Bool) (m : Nat) (e : Int) : Single :=
  let sign : Nat := if neg then 2 ^ 31 else 0
  if m = 0 then BitVec.ofNat 32 sign
  else
    let q : Int := max ((Nat.log2 m : Int) + e - 23) (-149)
    let mant : Nat :=
      if q ≤ e then m * 2 ^ (e - q).toNat
      else
        let sh := (q - e).toNat
        let down := m / 2 ^ sh
        let rest := m % 2 ^ sh
        let half := 2 ^ (sh - 1)
        if rest > half || (rest = half && down % 2 = 1) then down + 1 else down
    BitVec.ofNat 32 (sign + min ((q + 149).toNat * 2 ^ 23 + mant) 0x7F800000)

/-- The single-precision pattern of a rational, rounded as `singleRound` does: thirty bits or more of the quotient, and a last
bit that says whether it is exact. -/
def singleOfRat (x : Rat) : Single :=
  let sh := 30 + Nat.log2 x.den
  let a := x.num.natAbs * 2 ^ sh
  singleRound (decide (x.num < 0)) (2 * (a / x.den) + (if a % x.den = 0 then 0 else 1)) (-((sh : Int) + 1))

/-- `mdps * 1e-3 * (π/180)`, off by `err - 8` parts in 2^24 (R105; log 17). -/
def scaleFactor (mdps : Rat) (err : Nat) : Single :=
  singleOfRat (mdps * (1 / 1000) * (Config.piNear / 180) * (1 + ((err : Rat) - 8) / 2 ^ 24))

/-- A constant of a range whose factor is positive and finite in single precision, however its evaluation errs: R103 has zero
counts give zeros for any scale, which R106 grounds in that (log 26). -/
def usableConstant (mdps : Rat) : Bool :=
  (List.range 17).all fun err =>
    decide (0 < (scaleFactor mdps err).toNat) && decide ((scaleFactor mdps err).toNat < 0x7F800000)

/-- `mdps_per_lsb`, milli-degrees per second per count: 8.75 for the one range the source names, for the others a free constant
among the usable ones (R104; log 26). -/
def mdpsPerLsb : SensitivityScale → Rat
  | .dps250 => 35 / 4
  | .second => if usableConstant Config.mdpsSecond then Config.mdpsSecond else 35 / 4
  | .third => if usableConstant Config.mdpsThird then Config.mdpsThird else 35 / 4

/-- `rad_per_lsb(scale)` in single precision (R105, R106): the formula's value, up to the free error of its evaluation
(log 17). -/
def radPerLsb (sc : SensitivityScale) : Single := scaleFactor (mdpsPerLsb sc) (Config.factorError sc).val

/-- The one multiplication of R103: a count, exact in single precision, times a single-precision factor (R106). -/
def singleScale (i : Int) (f : Single) : Single :=
  let neg := xor (decide (i < 0)) (f.getLsbD 31)
  let expo := (f.extractLsb' 23 8).toNat
  let frac := (f.extractLsb' 0 23).toNat
  if expo = 255 then
    if frac = 0 ∧ i ≠ 0 then BitVec.ofNat 32 ((if neg then 2 ^ 31 else 0) + 0x7F800000) else 0x7FC00000
  else
    let m := if expo = 0 then frac else frac + 2 ^ 23
    let e : Int := (if expo = 0 then 1 else (expo : Int)) - 150
    singleRound neg (i.natAbs * m) e

/-- One axis of a measurement (R103). -/
def axisValue (low high : Byte) (factor : Single) : Single := singleScale (asSigned16 (wordOf low high)) factor

/-- `decode_measurement` on the six bytes in the order received (R103). -/
def decodeMeasurement (x0 x1 y0 y1 z0 z1 : Byte) (factor : Single) : Measurement :=
  { x := axisValue x0 x1 factor
    y := axisValue y0 y1 factor
    z := axisValue z0 z1 factor }

end Sys2Proof.Machine
end

