-- ==== Sys2Proof/Machine/Ops.lean ====
section
/-! DEFINITION. The named operations over the device registers, the capability primitives, the two attempts, the select
line, the admission of a transaction, the fault path and the close (R31, R61 to R68, R72, R73, R77, R78, R161 to R166). -/

namespace Sys2Proof.Machine

/-- An outcome that carries a value. -/
abbrev Out (α : Type) := Host.Outcome α Fault Refusal

/-- First `o`, then `f` of what it answers; a fault or a refusal ends it. -/
def andThen {α β : Type} (o : Out α) (f : α → Out β) : Out β :=
  match o with
  | .next a => f a
  | .fault r => .fault r
  | .refused r => .refused r

/-! The device registers. -/

/-- The stored byte at an address, none where nothing was written. -/
def Memory.read : Memory → Nat → Option Byte
  | [], _ => none
  | c :: rest, a => if c.1 = a then some c.2 else Memory.read rest a

/-- A byte stored, keeping the addresses strictly rising. -/
def Memory.write : Memory → Nat → Byte → Memory
  | [], a, v => [(a, v)]
  | c :: rest, a, v =>
      if a < c.1 then (a, v) :: c :: rest
      else if a = c.1 then (a, v) :: rest
      else c :: Memory.write rest a v

/-- What a location of the device holds: what was last written there, else its power-on content, a free value (R29, R31;
log 8). -/
def regRead (d : Device) (a : RegAddr) : Byte := (d.regs.read a.toNat).getD (Config.regPowerOn a)

/-- A location of the device written (R164). -/
def regWrite (d : Device) (a : RegAddr) (v : Byte) : Device := { d with regs := d.regs.write a.toNat v }

/-- `MemRead(addr, n)`: `n` locations in ascending order (spec/00_scope.md section 5, R36). -/
def regsRead (d : Device) (a n : Nat) : List Byte := (List.range n).map fun k => regRead d (BitVec.ofNat 6 (a + k))

/-! Frames, as the device sees them. -/

/-- The command frame latched (R164): direction, multi-byte bit, register pointer. -/
def Device.latch (b : Byte) (d : Device) : Device :=
  { d with dir := cmdDir b, multi := cmdMulti b, ptr := cmdAddr b, first := cmdAddr b, phase := .data }

/-- After a data frame: the pointer advances when the multi-byte bit is set, and stops after 0x3F (R164). With the bit clear a
further data frame addresses the same location: R164's for the reference device; for any other device the spec gives none
(R55, 93 V6, N11), and this is the model's choice (log 30). -/
def Device.advancePtr (d : Device) : Device :=
  if d.multi then
    (if d.ptr = 0x3F then { d with phase := .exhausted } else { d with ptr := d.ptr + 1 })
  else d

/-- `dev_frame(b)` of the reference device: the byte it replies and its new state (R163, R164). -/
def referenceFrame (dummy b : Byte) (d : Device) : Out (Byte × Device) :=
  match d.phase with
  | .idle => .refused .frameWhileIdle
  | .awaitCmd => .next (dummy, d.latch b)
  | .data => if d.dir then .next (regRead d d.ptr, d.advancePtr) else .next (dummy, (regWrite d d.ptr b).advancePtr)
  | .exhausted => .refused (.badRequest .pointerWrap)

/-- A location is one of the six measurement registers (R33). -/
def isMeasurement (p : Params) (a : RegAddr) : Bool :=
  decide (p.aAxis0Low.toNat ≤ a.toNat) && decide (a.toNat ≤ p.aAxis0Low.toNat + 5)

/-- The payload configurations that ask for the data-ready interrupt (R107, R111). -/
def interruptConfigs : List DeviceConfig :=
  (List.finRange 4).flatMap fun rate => (List.finRange 4).flatMap fun cutoff =>
    [.dps250, .second, .third].map fun scale => ⟨rate, cutoff, true, scale⟩

/-- Whether a byte stored in the interrupt-control register enables the data-ready interrupt: the byte that initialisation
step 3 stores there, the first of `enc_interrupt` of a configuration that asks for the interrupt, does (R111, R134); any other
may, by a free value (log 10). -/
def enablesDataReady (b : Byte) : Bool :=
  interruptConfigs.any (fun cfg => (Config.encInterrupt cfg).1 == b) || Config.drdyEnables b

/-- A data frame of a write transaction puts its byte in the location the pointer stands at (R36, R86, R88, R89); one of a read
transaction stores nothing. For a device that is not the reference one, that the location then holds the byte is the model's
choice (R31; log 8). -/
def Device.stored (b : Byte) (d : Device) : Device := if d.dir then d else regWrite d d.ptr b

/-- The side effects the source gives a data frame on a device that is not the reference one: a write of the primary
control register powers the sensing elements on, a write of the interrupt-control register enables the data-ready interrupt
when its byte is one that does, a read of all six measurement registers clears the pending condition, and of some of them may
(R40, R134, R143; log 10). R40 excludes no further side effect; that no other access changes these three bits is the model's
choice (log 32), and so is that a pair of rate and cutoff that is not valid has these effects like any other (R119, R157, 93 U4;
log 33). -/
def sensorEffects (p : Params) (k : Nat) (b : Byte) (d : Device) : Device :=
  if d.dir then
    { d with
      dataReady :=
        d.dataReady &&
          !(isMeasurement p d.ptr &&
            ((decide (d.ptr.toNat = p.aAxis0Low.toNat + 5) && decide (d.first.toNat ≤ p.aAxis0Low.toNat)) ||
              Config.drawCleared k)) }
  else
    { d with
      powered := d.powered || decide (d.ptr = p.aCtrlPrimary)
      drdyEnabled := if d.ptr = p.aCtrlInterrupt then enablesDataReady b else d.drdyEnabled }

/-- What a frame does to the device in the environments whose answers do not depend on its registers: it follows the command
convention, a data byte of a write reaches its location (R36, R86, R88, R89; log 8), and a data frame has the side effects of R40
(log 10). What such a device makes of a transaction whose multi-byte bit and
number of data frames disagree, of a command byte alone, of a frame while it is unselected or past its last address, is not in
the source (R55, 93 V6, N11); that it goes on frame by frame, and does nothing in the last three cases, is the model's choice
(log 30). -/
def followFrame (p : Params) (k : Nat) (b : Byte) (d : Device) : Device :=
  match d.phase with
  | .idle => d
  | .awaitCmd => d.latch b
  | .data => (sensorEffects p k b (d.stored b)).advancePtr
  | .exhausted => d

/-! The five capability primitives (spec/00_scope.md section 5). Each call is recorded once (R46). -/

/-- A call recorded. -/
def State.record (s : State) (c : Call) : State := { s with calls := s.calls ++ [c] }

/-- The flags the environment presents. -/
def State.present (s : State) (f : Snapshot) : State :=
  { s with per := { s.per with flags := f } }.record (.statusRead f)

/-- The reference peripheral's counters after a StatusRead (R161). -/
def Peripheral.tick (p : Peripheral) : Peripheral :=
  { p with waitTx := p.waitTx - 1, waitRx := if p.rxFull then p.waitRx - 1 else p.waitRx }

/-- `StatusRead()`: one snapshot, found afterwards in `per.flags` (R21, R22, R161, R166). -/
def statusRead (s : State) : Out State :=
  match s.env with
  | .oracle => .next ({ s with draws := s.draws + 1 }.present (Config.drawFlags s.draws))
  | .scripted =>
      match s.script.snapshots with
      | [] => .fault .scriptExhausted
      | f :: fs => .next ({ s with script := { s.script with snapshots := fs } }.present f)
  | .reference => .next ({ s with per := s.per.tick }.present (referenceFlags s.per))

/-- The reference peripheral after a frame whose reply is `r` (R162). -/
def Peripheral.receive (r : Byte) (p : Peripheral) : Peripheral :=
  if p.rxFull then { p with ovr := true, waitRx := p.delayRx }
  else { p with rxByte := r, rxFull := true, waitRx := p.delayRx }

/-- The byte handed to the peripheral's write port. -/
def State.handOver (s : State) (b : Byte) : State :=
  { s with per := { s.per with txByte := b } }.record (.dataWrite b)

/-- The frame as a device sees it whose answers are free values or the script's. -/
def State.followed (s : State) (b : Byte) : State :=
  { s with dev := followFrame s.par s.draws b s.dev, draws := s.draws + 1 }

/-- The frame done by the reference peripheral and device: the reply and the device's new state (R162). -/
def State.replied (s : State) (r : Byte) (d : Device) : State := { s with per := s.per.receive r, dev := d }

/-- `DataWrite(b)`: the byte is handed to the peripheral, and the frame happens (R23, R162, R166). Outside the reference
environment the source does not say when the frame is over (R62, 93 V9); that it is over at once, with all its effects on the
device, is the model's choice (log 31). -/
def dataWrite (b : Byte) (s : State) : Out State :=
  match s.env with
  | .oracle => .next ((s.handOver b).followed b)
  | .scripted => .next ((s.handOver b).followed b)
  | .reference =>
      andThen (referenceFrame s.par.dummy b s.dev) fun x => .next ((s.handOver b).replied x.1 x.2)

/-- The received byte the environment presents. -/
def State.receiveByte (s : State) (v : Byte) : State :=
  { s with per := { s.per with rxByte := v } }.record (.dataRead v)

/-- `DataRead()`: the received byte, found afterwards in `per.rxByte` (R23, R162, R166). -/
def dataRead (s : State) : Out State :=
  match s.env with
  | .oracle => .next ({ s with draws := s.draws + 1 }.receiveByte (Config.drawByte s.draws))
  | .scripted =>
      match s.script.bytes with
      | [] => .fault .scriptExhausted
      | v :: vs => .next ({ s with script := { s.script with bytes := vs } }.receiveByte v)
  | .reference =>
      .next ({ s with per := { s.per with rxFull := false, waitTx := s.per.delayTx } }.receiveByte s.per.rxByte)

/-- Where an assertion of the select line leaves the device: it awaits a command, at every assertion if it is the reference
device (R163). Any other device that was left asserted is locked in its active state (R26): an assertion of a line that is
asserted already, which a direct request can bring about (R167), starts nothing, and the device stays in the transaction it is in
until a deassertion (log 29). -/
def assertedPhase (s : State) : DevPhase :=
  if s.env ≠ .reference ∧ s.sel = .asserted then s.dev.phase else .awaitCmd

/-- `SelectAssert()` and the level it drives (R61, R163). That a device other than the reference one makes nothing of a select pulse
with no frame (R83, D27), its locations and the sensor's three bits staying as they were, is the model's choice (log 27). -/
def driveAsserted (s : State) : State :=
  { s with sel := .asserted, dev := { s.dev with phase := assertedPhase s } }.record .selectAssert

/-- `SelectDeassert()` and the level it drives; the device is unselected (R62, R163). That no frame is in progress at the
deassertion, so that it cuts none short, is the model's choice (R62, 93 V9; log 31). -/
def driveDeasserted (s : State) : State :=
  { s with sel := .deasserted, dev := { s.dev with phase := .idle } }.record .selectDeassert

/-! The four primitive operations (R61 to R64). -/

/-- SELECT_ASSERT (R61). -/
def selectAssert (s : State) : Out State :=
  if s.selCfg then .next (driveAsserted s) else .refused .selectNotConfigured

/-- SELECT_DEASSERT (R62). -/
def selectDeassert (s : State) : Out State :=
  if s.selCfg then .next (driveDeasserted s) else .refused .selectNotConfigured

/-- ATTEMPT_SEND (R63, R66, R68): one StatusRead, then the data write only when it is ready. -/
def attemptSend (b : Byte) (s : State) : Out (BusOutcome Unit × State) :=
  andThen (statusRead s) fun s1 =>
    match classifySend s1.per.flags with
    | .fault k => .next (.fault k, s1)
    | .ready _ => andThen (dataWrite b s1) fun s2 => .next (.ready (), s2)
    | .notYetReady => .next (.notYetReady, s1)

/-- ATTEMPT_RECEIVE (R64, R66, R68): one StatusRead, then the data read only when it is ready. -/
def attemptReceive (s : State) : Out (BusOutcome Byte × State) :=
  andThen (statusRead s) fun s1 =>
    match classifyReceive s1.per.flags with
    | .fault k => .next (.fault k, s1)
    | .ready _ => andThen (dataRead s1) fun s2 => .next (.ready s2.per.rxByte, s2)
    | .notYetReady => .next (.notYetReady, s1)

/-- A direct request of a primitive is admitted only while no transaction is in flight (R167). -/
def whenIdle (s : State) (o : Out State) : Out State := if s.busy then .refused .reentrantExchange else o

/-- A result returned to a context. -/
def State.deliver (s : State) (c : Context) (r : Result) : State :=
  s.setThread c { s.thread c with result := some r }

/-! Transactions. -/

/-- Why an EXCHANGE is not admitted, in the order of R72. -/
def exchangeRefusal (bytes : List Byte) (mask : List Bool) (s : State) : Option Refusal :=
  if !s.selCfg then some .selectNotConfigured
  else if s.busy then some .reentrantExchange
  else if mask.length ≠ bytes.length then some (.badRequest .malformedRequest)
  else if bytes.length > s.par.maxLen + 1 then some (.badRequest .tooLong)
  else none

/-- The latches of an admitted EXCHANGE (R14, R45, R72). -/
def latchTransaction (c : Caller) (bytes : List Byte) (mask : List Bool) (s : State) : State :=
  { s with
    busy := true
    n := bytes.length
    out := bytes
    keep := mask
    inb := []
    res := none
    caller := c
    owner := s.host.context }

/-- The sequencer moves (R80). -/
def State.goto (s : State) (q : Seq) : State := { s with seq := q }

/-- Admission and step 1 of an EXCHANGE: the latches, SELECT_ASSERT, the first position (R72, R73). -/
def openTransaction (c : Caller) (bytes : List Byte) (mask : List Bool) (s : State) : Out State :=
  match exchangeRefusal bytes mask s with
  | some r => .refused r
  | none =>
      andThen (selectAssert (latchTransaction c bytes mask s)) fun s1 =>
        .next (s1.goto (if 0 < s1.n then .send 0 else .close 0))

/-- Why a register access is not admitted, in the order of R92. -/
def accessRefusal (maxLen a n : Nat) : Option Refusal :=
  if a > Config.lastAddr then some (.badRequest .addressOutOfRange)
  else if n = 0 then some (.badRequest .emptyPayload)
  else if n > maxLen then some (.badRequest .tooLong)
  else if a + n - 1 > Config.lastAddr then some (.badRequest .pointerWrap)
  else none

/-- A transaction whose register access is checked first, before any bus activity (R51, R92). -/
def openAccess (c : Caller) (a n : Nat) (bytes : List Byte) (mask : List Bool) (s : State) : Out State :=
  match accessRefusal s.par.maxLen a n with
  | some r => .refused r
  | none => openTransaction c bytes mask s

/-- TAKING A FAULT (R78, R129): the kind is stored, the byte loop is left, the close comes next. -/
def abortTransaction (k : FaultKind) (i : Nat) (s : State) : State := { s with res := some k, seq := .close i }

/-- The bytes of the caller's buffer after a failed READ: a free value a slot (R94; log 12). -/
def unspecifiedBuffer (k n : Nat) : List Byte := (List.range n).map fun i => Config.drawSlot (k + i)

/-- The result of a transaction, returned to the operation that waits for it and by it to its context (R77, R86, R87,
R94). -/
def returnResult (s : State) : State :=
  match s.caller, s.res with
  | .exchange, some k => s.deliver s.owner (.exchange (.err k))
  | .exchange, none => s.deliver s.owner (.exchange (.ok s.inb))
  | .write, some k => s.deliver s.owner (.write (.err k))
  | .write, none => s.deliver s.owner (.write (.ok ()))
  | .read n, some k =>
      { s with draws := s.draws + n }.setThread s.owner
        { s.thread s.owner with result := some (.read (.err k)), buffer := unspecifiedBuffer s.draws n }
  | .read _, none =>
      s.setThread s.owner { s.thread s.owner with result := some (.read (.ok s.inb)), buffer := s.inb }

/-- The block is idle again (R77). -/
def State.release (s : State) : State := { s with seq := .idle, busy := false }

/-- Step 4, THE RETURN (R77, R129): the select line is deasserted whatever happened, the block is idle, the result is
returned. -/
def closeTransaction (s : State) : Out State :=
  andThen (selectDeassert s) fun s1 => .next (returnResult s1.release)

end Sys2Proof.Machine
end

