-- ==== Sys2Proof/Machine/Protocol.lean ====
section
/-! DEFINITION. RegisterProtocol: WRITE and READ, each one EXCHANGE (R86, R87, R92, R95). -/

namespace Sys2Proof.Machine

/-- WRITE a, payload (R86). -/
def execWrite (a : Nat) (payload : List Byte) (s : State) : Out State :=
  openAccess .write a payload.length (writeFrames (BitVec.ofNat 6 a) payload) (writeKeep payload.length) s

/-- READ a, n (R87). -/
def execRead (a n : Nat) (s : State) : Out State :=
  openAccess (.read n) a n (readFrames (BitVec.ofNat 6 a) n) (readKeep n) s

end Sys2Proof.Machine
end

