-- ==== Sys2Proof/Machine/Controller.lean ====
section
/-! DEFINITION. The DeviceController: initialize, read_status, read_measurement as sequences of WRITE and READ (R108 to
R120). A call advances when the transaction it waits for has closed. -/

namespace Sys2Proof.Machine

/-- The context that runs is inside (or no longer inside) a DeviceController call. -/
def State.setCall (s : State) (c : Option CallStage) : State :=
  s.setThread s.host.context { s.thread s.host.context with call := c }

/-- Step 1 of initialize (R109): the select line becomes an output and is driven deasserted. -/
def configureSelect (s : State) : State := { driveDeasserted s with selCfg := true }

/-- A call ends with its result. -/
def finishCall (r : Result) (s : State) : State := (s.setCall none).deliver s.host.context r

/-- initialize ends: Ready on success, Uninitialized on any failure (R108, R114, R120; log 16). -/
def finishInit (r : InitResult) (s : State) : State :=
  finishCall (.init r)
    { s with host := { s.host with ctl := match r with | .ok => .ready | .identityMismatch => .uninitialized | .fault _ => .uninitialized } }

/-- A WRITE whose payload is a first byte and a rest, and the stage that waits for it. -/
def writePayload (a : RegAddr) (p : Byte × List Byte) (stage : CallStage) (s : State) : Out State :=
  andThen (execWrite a.toNat (p.1 :: p.2) s) fun s1 => .next (s1.setCall (some stage))

/-- A READ, and the stage that waits for it. -/
def readRegister (a : RegAddr) (n : Nat) (stage : CallStage) (s : State) : Out State :=
  andThen (execRead a.toNat n s) fun s1 => .next (s1.setCall (some stage))

/-- Step 3, the interrupt-control write (R111). -/
def issueInterrupt (cfg : DeviceConfig) (s : State) : Out State :=
  writePayload s.par.aCtrlInterrupt (Config.encInterrupt cfg) (.initInterrupt cfg) s

/-- Step 4, the range-control write (R112). -/
def issueRange (cfg : DeviceConfig) (s : State) : Out State :=
  writePayload s.par.aCtrlRange (Config.encRange cfg) (.initRange cfg) s

/-- Step 5, the primary-control write, always last (R113). -/
def issuePrimary (cfg : DeviceConfig) (s : State) : Out State :=
  writePayload s.par.aCtrlPrimary (Config.encPrimary cfg) (.initPrimary cfg) s

/-- A call begins (R109, R115, R116, R117). -/
def startCall (c : HostCall) (s : State) : Out State :=
  match c with
  | .initDevice cfg =>
      if s.busy then .refused .reentrantExchange
      else .next ((configureSelect s).setCall (some (.initStart cfg)))
  | .readStatus =>
      if s.host.ctl = .ready then readRegister s.par.aStatus 1 .status s else .refused .notInitialized
  | .readMeasurement sc =>
      if s.host.ctl = .ready then readRegister s.par.aAxis0Low 6 (.measurement sc) s else .refused .notInitialized

/-- Step 2 judged (R110): equality of all eight bits, then step 3 if the configuration asks for it, else step 4. -/
def afterIdentity (cfg : DeviceConfig) (r : Option Result) (s : State) : Out State :=
  match r with
  | some (.read (.err k)) => .next (finishInit (.fault k) s)
  | some (.read (.ok [id])) =>
      if id = s.par.deviceId then (if cfg.interruptEnabled then issueInterrupt cfg s else issueRange cfg s)
      else .next (finishInit .identityMismatch s)
  | _ => .fault .sequencerOutOfStep

/-- A configuration write judged (R111 to R114): a fault ends initialize, success goes on. -/
def afterWrite (go : State → Out State) (r : Option Result) (s : State) : Out State :=
  match r with
  | some (.write (.err k)) => .next (finishInit (.fault k) s)
  | some (.write (.ok _)) => go s
  | _ => .fault .sequencerOutOfStep

/-- read_status judged (R115). -/
def afterStatus (r : Option Result) (s : State) : Out State :=
  match r with
  | some (.read (.err k)) => .next (finishCall (.status (.err k)) s)
  | some (.read (.ok [b])) => .next (finishCall (.status (.ok (decodeStatus b))) s)
  | _ => .fault .sequencerOutOfStep

/-- read_measurement judged (R116). -/
def afterMeasurement (sc : SensitivityScale) (r : Option Result) (s : State) : Out State :=
  match r with
  | some (.read (.err k)) => .next (finishCall (.measurement (.err k)) s)
  | some (.read (.ok [x0, x1, y0, y1, z0, z1])) =>
      .next (finishCall (.measurement (.ok (decodeMeasurement x0 x1 y0 y1 z0 z1 (radPerLsb sc)))) s)
  | _ => .fault .sequencerOutOfStep

/-- A call goes on, the transaction it waited for being closed (R108 to R116). -/
def continueCall (stage : CallStage) (s : State) : Out State :=
  match stage with
  | .initStart cfg => readRegister s.par.aIdentity 1 (.initIdentity cfg) s
  | .initIdentity cfg => afterIdentity cfg (s.thread s.host.context).result s
  | .initInterrupt cfg => afterWrite (issueRange cfg) (s.thread s.host.context).result s
  | .initRange cfg => afterWrite (issuePrimary cfg) (s.thread s.host.context).result s
  | .initPrimary _ => afterWrite (fun s1 => .next (finishInit .ok s1)) (s.thread s.host.context).result s
  | .status => afterStatus (s.thread s.host.context).result s
  | .measurement sc => afterMeasurement sc (s.thread s.host.context).result s

end Sys2Proof.Machine
end

