-- ==== Sys2Proof/Machine/Bus.lean ====
section
/-! DEFINITION. BusChannel: EXCHANGE (R71 to R73) and the sequencer that carries an admitted one out (R74 to R80). -/

namespace Sys2Proof.Machine

/-- EXCHANGE bytes_out keep (R71): admission and step 1; the sequencer's steps do the rest (R80). -/
def execExchange (bytesOut : List Byte) (mask : List Bool) (s : State) : Out State :=
  openTransaction .exchange bytesOut mask s

/-- Step 2a at position `i` (R74): one ATTEMPT_SEND of the latched byte. -/
def sendStep (i : Nat) (s : State) : Out State :=
  match s.out[i]? with
  | none => .fault .sequencerOutOfStep
  | some b =>
      andThen (attemptSend b s) fun x =>
        match x.1 with
        | .notYetReady => .next x.2
        | .ready _ => .next (x.2.goto (.recv i))
        | .fault k => .next (abortTransaction k i x.2)

/-- Step 3 at position `i` (R76), and the position that follows (R75). -/
def collect (kept : Bool) (v : Byte) (i : Nat) (s : State) : State :=
  { s with
    inb := if kept then s.inb ++ [v] else s.inb
    seq := if i + 1 < s.n then .send (i + 1) else .close s.n }

/-- Step 2b at position `i` (R75): one ATTEMPT_RECEIVE. -/
def recvStep (i : Nat) (s : State) : Out State :=
  match s.keep[i]? with
  | none => .fault .sequencerOutOfStep
  | some kept =>
      andThen (attemptReceive s) fun x =>
        match x.1 with
        | .notYetReady => .next x.2
        | .ready v => .next (collect kept v i x.2)
        | .fault k => .next (abortTransaction k i x.2)

/-- One step of the transactor while a transaction is in flight (R80). -/
def sequencerStep (s : State) : Out State :=
  match s.seq with
  | .idle => .fault .sequencerOutOfStep
  | .send i => sendStep i s
  | .recv i => recvStep i s
  | .close _ => closeTransaction s

end Sys2Proof.Machine
end

