-- ==== Sys2Proof/Machine/Transport.lean ====
section
/-! DEFINITION. The four primitive operations requested directly (R61 to R64, R167). -/

namespace Sys2Proof.Machine

/-- SELECT_ASSERT (R61, R167). -/
def execSelectAssert (s : State) : Out State := whenIdle s (selectAssert s)

/-- SELECT_DEASSERT (R62, R167). -/
def execSelectDeassert (s : State) : Out State := whenIdle s (selectDeassert s)

/-- ATTEMPT_SEND b (R63, R167): the outcome goes to the context that asked. -/
def execAttemptSend (b : Byte) (s : State) : Out State :=
  whenIdle s (andThen (attemptSend b s) fun x => .next (x.2.deliver x.2.host.context (.send x.1)))

/-- ATTEMPT_RECEIVE (R64, R167): the outcome goes to the context that asked. -/
def execAttemptReceive (s : State) : Out State :=
  whenIdle s (andThen (attemptReceive s) fun x => .next (x.2.deliver x.2.host.context (.receive x.1)))

end Sys2Proof.Machine
end

