-- ==== Sys2Proof/Machine/Wire.lean ====
section
/-! DEFINITION. The four wire forms carried out by the block: the transaction that puts the form on the wire and receives
its replies (R88 to R91; log 1). -/

namespace Sys2Proof.Machine

/-- A multi-byte form has at least two data bytes (R50, R55). -/
def whenMulti (n : Nat) (o : Out State) : Out State := if n < 2 then .refused (.badRequest .formMismatch) else o

/-- WR1 (R88): two frames, nothing kept. -/
def execWr1 (a : RegAddr) (p : Byte) (s : State) : Out State :=
  openAccess .write a.toNat 1 (encode (.wr1 a p)) (writeKeep 1) s

/-- WRM (R89): the command and the payload, nothing kept. -/
def execWrm (a : RegAddr) (ps : List Byte) (s : State) : Out State :=
  whenMulti ps.length (openAccess .write a.toNat ps.length (encode (.wrm a ps)) (writeKeep ps.length) s)

/-- RD1 (R90): two frames, the second received byte kept. -/
def execRd1 (a : RegAddr) (s : State) : Out State :=
  openAccess (.read 1) a.toNat 1 (encode (.rd1 a)) (readKeep 1) s

/-- RDM (R91): the command and `n` fillers, all received bytes but the first kept. -/
def execRdm (a : RegAddr) (n : Nat) (s : State) : Out State :=
  whenMulti n (openAccess (.read n) a.toNat n (encode (.rdm a n)) (readKeep n) s)

end Sys2Proof.Machine
end

