-- ==== Sys2Proof/Machine/Dispatch.lean ====
section
/-! DEFINITION. The meaning of every instruction, one arm a constructor (spec/opcode_table.json). -/

namespace Sys2Proof.Machine

def exec (i : Instr) (s : State) : Host.Outcome State Fault Refusal :=
  match i with
  | .wr1 a p => Sys2Proof.Machine.execWr1 a p s
  | .wrm a ps => Sys2Proof.Machine.execWrm a ps s
  | .rd1 a => Sys2Proof.Machine.execRd1 a s
  | .rdm a n => Sys2Proof.Machine.execRdm a n s
  | .selectAssert => Sys2Proof.Machine.execSelectAssert s
  | .selectDeassert => Sys2Proof.Machine.execSelectDeassert s
  | .attemptSend b => Sys2Proof.Machine.execAttemptSend b s
  | .attemptReceive => Sys2Proof.Machine.execAttemptReceive s
  | .exchange out mask => Sys2Proof.Machine.execExchange out mask s
  | .write a p => Sys2Proof.Machine.execWrite a p s
  | .read a n => Sys2Proof.Machine.execRead a n s

end Sys2Proof.Machine
end

