-- ==== Sys2Proof/Machine/Scheduler.lean ====
section
/-! DEFINITION. The host agent between the transactor's steps: its requests, its two contexts, the data-ready interrupt
(R12, R134 to R136). -/

namespace Sys2Proof.Machine

/-- The device's own move before a step, under the oracle: new data may arrive once the sensing elements are on and the
interrupt is enabled; the pending condition raises one interrupt request when it sets (R134, R156; log 11). -/
def deviceMove (s : State) : State :=
  if s.env = .oracle ∧ s.dev.powered = true ∧ s.dev.drdyEnabled = true ∧ s.dev.dataReady = false then
    (if Config.drawNewData s.draws then
      { s with
        draws := s.draws + 1
        dev := { s.dev with dataReady := true }
        host := { s.host with irq := true } }
     else { s with draws := s.draws + 1 })
  else s

/-- An interrupt request is taken: one waits, the source is not disabled, and the handler is not already running (R135,
R136). -/
def interruptTaken (s : State) : Bool :=
  s.host.irqOn && (s.host.irq && decide (s.host.context = .ordinary))

/-- The handler starts; the ordinary context does not go on until it returns (R135). -/
def enterHandler (s : State) : State :=
  { s with
    host := { s.host with context := .handler, irq := false, handler := { s.host.handler with todo := s.host.isr } } }

/-- The handler returns (R135). -/
def leaveHandler (s : State) : State := { s with host := { s.host with context := .ordinary } }

/-- The context that runs has made its first request. -/
def State.popped (s : State) (rest : List Request) : State :=
  s.setThread s.host.context { s.thread s.host.context with todo := rest }

/-- The frames of a wire transaction decoded and carried out (R54, R56). -/
def runFrames (bytes : List Byte) (s : State) : Out State :=
  match decodeFrames bytes with
  | .ok i => exec i s
  | .error e => .refused (.badFrames e)

/-- One request made (R12, R57, R118). -/
def makeRequest (r : Request) (s : State) : Out State :=
  match r with
  | .frames bytes => runFrames bytes s
  | .op i => exec i s
  | .call c => startCall c s
  | .setInterrupt on => .next { s with host := { s.host with irqOn := on } }

/-- Nothing left to ask for: the handler returns, and the ordinary context idles (R135, R160; log 23). -/
def outOfRequests (s : State) : Out State :=
  match s.host.context with
  | .ordinary => .next s
  | .handler => .next (leaveHandler s)

/-- One step of the host in the context that runs. -/
def hostStep (s : State) : Out State :=
  match (s.thread s.host.context).call with
  | some stage => continueCall stage s
  | none =>
      match (s.thread s.host.context).todo with
      | [] => outOfRequests s
      | r :: rest => makeRequest r (s.popped rest)

/-- The running context waits for the transaction in flight, which is its own (R81, R135). -/
def waitsForBus (s : State) : Bool := s.busy && decide (s.owner = s.host.context)

/-- One step once the device has moved: an interrupt, else the transactor, else the host. -/
def agentStep (s : State) : Out State :=
  if interruptTaken s then .next (enterHandler s)
  else if waitsForBus s then sequencerStep s
  else hostStep s

end Sys2Proof.Machine
end

