-- ==== Sys2Proof/Machine/Step.lean ====
section
/-! DEFINITION. One step of the machine, and where it fetches a wire instruction. -/

namespace Sys2Proof.Machine

/-- One step: the device may move, then an interrupt is taken, the transactor goes on with the transaction in flight, or
the host goes on (R12, R80, R135). -/
def step (s : State) : Host.Outcome State Fault Refusal := agentStep (deviceMove s)

/-- The frames of a table row's bits placed as the next request of the ordinary context, the block brought up by
initialisation step 1 and idle, and the interrupt source disabled so that no handler runs first (log 2). -/
def State.withFetchWord (s : State) (nbits w : Nat) : State :=
  { s with
    selCfg := true
    sel := .deasserted
    busy := false
    seq := .idle
    host := { s.host with
      context := .ordinary
      irqOn := false
      ordinary := { s.host.ordinary with todo := [.frames (tableFrames nbits w)], call := none } } }

end Sys2Proof.Machine
end

