-- ==== Sys2Proof/Safety.lean ====
section
/-! DEFINITION. The terms statements use: what the environment is about to show, which states are coherent, what framing is,
what a frame condition keeps, and the big-step reading of EXCHANGE (R30, R72, R79, R80, R160). -/

namespace Sys2Proof.Machine

/-! What the environment is about to show. -/

/-- The snapshot the next StatusRead finds, none when the script has ended (R21, R161, R166). -/
def shownFlags (s : State) : Option Snapshot :=
  match s.env with
  | .oracle => some (Config.drawFlags s.draws)
  | .scripted => s.script.snapshots.head?
  | .reference => some (referenceFlags s.per)

/-- The byte the DataRead of the next ATTEMPT_RECEIVE finds, none when the script has ended (R64, R162, R166). -/
def shownByte (s : State) : Option Byte :=
  match s.env with
  | .oracle => some (Config.drawByte (s.draws + 1))
  | .scripted => s.script.bytes.head?
  | .reference => some s.per.rxByte

/-- The device takes a frame: the reference one only while it awaits a command or data (R163, R164). -/
def frameTaken (s : State) : Bool :=
  match s.env with
  | .oracle => true
  | .scripted => true
  | .reference => decide (s.dev.phase = .awaitCmd) || decide (s.dev.phase = .data)

/-- The location the next frame stores to: the one the device's pointer stands at, in a write transaction (R36, R86, R164). -/
def storeTarget (s : State) : Option RegAddr :=
  if s.dev.phase = .data ∧ s.dev.dir = false then some s.dev.ptr else none

/-! What a frame condition keeps. -/

/-- The transactor's own registers are the same (R14 to R20). -/
structure SameTransactor (s t : State) : Prop where
  selCfg : t.selCfg = s.selCfg
  sel : t.sel = s.sel
  busy : t.busy = s.busy
  seq : t.seq = s.seq
  res : t.res = s.res
  n : t.n = s.n
  out : t.out = s.out
  keep : t.keep = s.keep
  inb : t.inb = s.inb
  caller : t.caller = s.caller
  owner : t.owner = s.owner

/-- The environment's own state is the same but for the log of calls: the peripheral, the device, the script, the draws. -/
structure SameEnvironment (s t : State) : Prop where
  per : t.per = s.per
  dev : t.dev = s.dev
  env : t.env = s.env
  script : t.script = s.script
  draws : t.draws = s.draws
  par : t.par = s.par

/-- Every location of the device but `target` reads as before (R31). That a device other than the reference one changes no location
by itself is the model's choice (log 8). -/
def SameRegsBut (target : Option RegAddr) (s t : State) : Prop :=
  ∀ a : RegAddr, target ≠ some a → regRead t.dev a = regRead s.dev a

/-! Coherent states: an invariant of every step (R16, R17, R20). -/

/-- The position is inside the transaction (R16). -/
def SeqInRange (s : State) : Prop :=
  match s.seq with
  | .idle => True
  | .send i => i < s.n
  | .recv i => i < s.n
  | .close i => i ≤ s.n

/-- The bytes collected so far are those of the positions kept so far, and no fault has been seen before the close; a close
without a fault has them all (R17, R76). -/
def CollectedSoFar (s : State) : Prop :=
  match s.seq with
  | .idle => True
  | .send i => s.inb.length = (s.keep.take i).count true ∧ s.res = none
  | .recv i => s.inb.length = (s.keep.take i).count true ∧ s.res = none
  | .close i => s.res = none → i = s.n ∧ s.inb.length = s.keep.count true

/-- A READ in flight keeps as many bytes as it wants (R87). -/
def ReadMaskFits (s : State) : Prop :=
  match s.caller with
  | .exchange => True
  | .write => True
  | .read m => s.seq ≠ .idle → s.keep.count true = m

/-- The states the spec's rules describe; the parameters are what R10 and R34 ask of them. -/
structure Coherent (s : State) : Prop where
  busyInFlight : s.busy = true ↔ s.seq ≠ .idle
  outLength : s.out.length = s.n
  keepLength : s.keep.length = s.n
  inRange : SeqInRange s
  configured : s.seq ≠ .idle → s.selCfg = true
  collected : CollectedSoFar s
  readMask : ReadMaskFits s
  bounded : s.n ≤ s.par.maxLen + 1
  parameters : s.par.wellFormed = true
  memory : s.dev.regs.wf = true

/-- A request that is not a direct use of a select primitive (R30, R167). -/
def framedRequest : Request → Bool
  | .op i => decide (i ≠ .selectAssert) && decide (i ≠ .selectDeassert)
  | .frames _ => true
  | .call _ => true
  | .setInterrupt _ => true

/-- A host that leaves the select line to EXCHANGE, WRITE and READ (R30). -/
def framedHost (h : HostState) : Bool :=
  h.ordinary.todo.all framedRequest && (h.handler.todo.all framedRequest && h.isr.all framedRequest)

/-- The select line is asserted exactly while a transaction is in flight (R30). -/
def SelectFramed (s : State) : Prop := s.selCfg = true → (s.sel = .asserted ↔ s.seq ≠ .idle)

/-- The end of a run: no request left and the block idle with the line deasserted (R160). That an interrupt request which waits, and
the handler's list it would start, are no further request, so that a run has ended although the handler may start next, is the model's
choice (log 23). -/
def runEnded (s : State) : Prop :=
  s.host.ordinary.todo = [] ∧ s.host.ordinary.call = none ∧ s.host.context = .ordinary ∧
    s.busy = false ∧ s.seq = .idle ∧ s.sel = .deasserted

/-- The block is ready to admit a transaction: configured and idle (R72). -/
def readyToOpen (s : State) : Prop := s.selCfg = true ∧ s.busy = false

/-- The state an admitted transaction opens in: the latches, the line asserted, the first position (R72, R73). -/
def openedState (c : Caller) (bytes : List Byte) (mask : List Bool) (s : State) : State :=
  { s with
    busy := true
    n := bytes.length
    out := bytes
    keep := mask
    inb := []
    res := none
    caller := c
    owner := s.host.context
    sel := .asserted
    dev := { s.dev with phase := assertedPhase s }
    calls := s.calls ++ [.selectAssert]
    seq := if bytes = [] then .close 0 else .send 0 }

/-- The operand conditions of a register access (R51, R92). -/
def accessAdmitted (maxLen a n : Nat) : Prop := a ≤ 0x3F ∧ 1 ≤ n ∧ n ≤ maxLen ∧ a + n - 1 ≤ 0x3F

/-- The number a single-precision pattern stands for, when it is zero, subnormal or normal (R103, R106). -/
def singleValue (f : Single) : Rat :=
  (if f.getLsbD 31 then -1 else 1) *
    (if (f.extractLsb' 23 8).toNat = 0 then ((f.extractLsb' 0 23).toNat : Rat) * 2 ^ (-149 : Int)
      else (2 ^ 23 + (f.extractLsb' 0 23).toNat : Rat) * 2 ^ (((f.extractLsb' 23 8).toNat : Int) - 150))

/-! The DeviceController's order (R108 to R113). -/

/-- The place of a stage in initialize. -/
def initRank : CallStage → Nat
  | .initStart _ => 0
  | .initIdentity _ => 1
  | .initInterrupt _ => 2
  | .initRange _ => 3
  | .initPrimary _ => 4
  | .status => 0
  | .measurement _ => 0

/-- A stage of initialize, and its configuration. -/
def initConfig : CallStage → Option DeviceConfig
  | .initStart c => some c
  | .initIdentity c => some c
  | .initInterrupt c => some c
  | .initRange c => some c
  | .initPrimary c => some c
  | .status => none
  | .measurement _ => none

/-- What comes after a stage of initialize, given what its transaction returned: the next stage, or the end with a result
(R109 to R114). Step 3 is skipped when the configuration does not ask for it, step 4 and step 5 never. -/
def initSuccessor (p : Params) : CallStage → Option Result → Option (CallStage ⊕ InitResult)
  | .initStart c, _ => some (.inl (.initIdentity c))
  | .initIdentity _, some (.read (.err k)) => some (.inr (.fault k))
  | .initIdentity c, some (.read (.ok [id])) =>
      some (if id = p.deviceId then .inl (if c.interruptEnabled then .initInterrupt c else .initRange c)
        else .inr .identityMismatch)
  | .initInterrupt _, some (.write (.err k)) => some (.inr (.fault k))
  | .initInterrupt c, some (.write (.ok _)) => some (.inl (.initRange c))
  | .initRange _, some (.write (.err k)) => some (.inr (.fault k))
  | .initRange c, some (.write (.ok _)) => some (.inl (.initPrimary c))
  | .initPrimary _, some (.write (.err k)) => some (.inr (.fault k))
  | .initPrimary _, some (.write (.ok _)) => some (.inr .ok)
  | _, _ => none

/-- The register access of a stage of initialize: the address and the number of bytes (R110 to R113). -/
def stageAccess (p : Params) : CallStage → Nat × Nat
  | .initStart _ => (0, 0)
  | .initIdentity _ => (p.aIdentity.toNat, 1)
  | .initInterrupt c => (p.aCtrlInterrupt.toNat, (Config.encInterrupt c).2.length + 1)
  | .initRange c => (p.aCtrlRange.toNat, (Config.encRange c).2.length + 1)
  | .initPrimary c => (p.aCtrlPrimary.toNat, (Config.encPrimary c).2.length + 1)
  | .status => (p.aStatus.toNat, 1)
  | .measurement _ => (p.aAxis0Low.toNat, 6)

/-- The bytes of the transaction a stage waits for (R110 to R116). -/
def stageFrames (p : Params) : CallStage → List Byte
  | .initStart _ => []
  | .initIdentity _ => readFrames p.aIdentity 1
  | .initInterrupt c => writeFrames p.aCtrlInterrupt ((Config.encInterrupt c).1 :: (Config.encInterrupt c).2)
  | .initRange c => writeFrames p.aCtrlRange ((Config.encRange c).1 :: (Config.encRange c).2)
  | .initPrimary c => writeFrames p.aCtrlPrimary ((Config.encPrimary c).1 :: (Config.encPrimary c).2)
  | .status => readFrames p.aStatus 1
  | .measurement _ => readFrames p.aAxis0Low 6

/-! The big-step reading of EXCHANGE (R79), over a script of snapshots and received bytes. -/

/-- What one spin-retry loop makes of the snapshots: the calls it made, the fault that ended it if one did, and the snapshots
left; none if they run out first. -/
def spinLoop (judge : Snapshot → BusOutcome Unit) : List Snapshot → Option (List Call × Option FaultKind × List Snapshot)
  | [] => none
  | f :: fs =>
      match judge f with
      | .ready _ => some ([.statusRead f], none, fs)
      | .fault k => some ([.statusRead f], some k, fs)
      | .notYetReady => (spinLoop judge fs).map fun x => (.statusRead f :: x.1, x.2)

/-- The receive half of one byte, with the byte it takes from the script. -/
def bigReceive (sc : Script) : Option (List Call × (FaultKind ⊕ Byte) × Script) :=
  match spinLoop classifyReceive sc.snapshots with
  | none => none
  | some (cs, some k, fs) => some (cs, .inl k, { sc with snapshots := fs })
  | some (cs, none, fs) =>
      match sc.bytes with
      | [] => none
      | v :: vs => some (cs ++ [.dataRead v], .inr v, ⟨fs, vs⟩)

/-- The byte loop of R79: the calls between the select operations, the result, and what is left of the script. -/
def bigBytes : List Byte → List Bool → List Byte → Script → Option (List Call × Res (List Byte) × Script)
  | [], _, acc, sc => some ([], .ok acc, sc)
  | _ :: _, [], _, _ => none
  | b :: bs, k :: ks, acc, sc =>
      match spinLoop classifySend sc.snapshots with
      | none => none
      | some (cs, some e, fs) => some (cs, .err e, { sc with snapshots := fs })
      | some (cs, none, fs) =>
          match bigReceive { sc with snapshots := fs } with
          | none => none
          | some (ds, .inl e, sc') => some (cs ++ .dataWrite b :: ds, .err e, sc')
          | some (ds, .inr v, sc') =>
              (bigBytes bs ks (if k then acc ++ [v] else acc) sc').map fun x => (cs ++ .dataWrite b :: (ds ++ x.1), x.2)

/-- EXCHANGE as one big step (R79): the calls in order, the result, what is left of the script. -/
def bigExchange (bytesOut : List Byte) (mask : List Bool) (sc : Script) : Option (List Call × Res (List Byte) × Script) :=
  (bigBytes bytesOut mask [] sc).map fun x => (.selectAssert :: (x.1 ++ [.selectDeassert]), x.2)

end Sys2Proof.Machine
end

