-- ==== Sys2Proof/Certificates/Slice0/Obligations.lean ====
section
/-! DEFINITION. The statements for the provers. Each docstring names the rule of spec/ it formalises; a clause that rests on a
choice of the model says so and names the log entry (notes/assumptions). -/

open Sys2Proof Sys2Proof.Machine

/-! ## Encoding -/

/-- R54: of the four pairs of match and mask exactly one fits any byte, it is the decoded form, and the address is the byte
under 0x3F. -/
def Obligations.CommandByteIsExactlyOneForm : Prop :=
  ∀ c : Byte,
    ([(CmdForm.wr1, 0x00, 0xC0), (.wrm, 0x40, 0xC0), (.rd1, 0x80, 0xC0), (.rdm, 0xC0, 0xC0)].filter
        fun r : CmdForm × Byte × Byte => decide (c &&& r.2.2 = r.2.1)).map Prod.fst = [(decodeCommand c).1] ∧
      (decodeCommand c).2.toNat = (c &&& 0x3F).toNat

/-- R85: the command byte as a number is the direction, the multi-byte bit set when n > 1, and the address. -/
def Obligations.CommandEncoderAddsItsFields : Prop :=
  ∀ (dir : Bool) (n : Nat) (a : RegAddr),
    (encodeCmd dir n a).toNat = (if dir then 0x80 else 0) + (if 1 < n then 0x40 else 0) + a.toNat

/-- 95_test_vectors.md section 2.1: encoding the fields read from a command byte gives the byte back. -/
def Obligations.CommandByteReencodes : Prop :=
  ∀ c : Byte, encodeCmd (cmdDir c) (1 + (cmdMulti c).toNat) (cmdAddr c) = c

/-- R60: the source's two command bytes, encoded. The transactions they begin and the examples of R88 and R89 are decoded as
whole frames (R54 to R56, R90, R91), as the model's decoder reads them (log 22). -/
def Obligations.SourceExamplesEncodeAndDecode : Prop :=
  encodeCmd true 1 0x27 = 0xA7 ∧ encodeCmd true 6 0x28 = 0xE8 ∧
    decodeFrames [0xA7, 0x00] = .ok (.rd1 0x27) ∧
    decodeFrames [0xE8, 0, 0, 0, 0, 0, 0] = .ok (.rdm 0x28 6) ∧
    decodeFrames [0x23, 0x10] = .ok (.wr1 0x23 0x10) ∧
    decodeFrames [0x60, 0x0F, 0x00] = .ok (.wrm 0x20 [0x0F, 0x00])

/-- R52, R88 to R91: every well-formed wire form, with every operand, is read back from its own frames. -/
def Obligations.WireFormsDecodeToThemselves : Prop :=
  ∀ (maxLen : Nat) (i : Instr), i.isWire = true → i.wellFormed maxLen = true → decodeFrames (encode i) = .ok i

/-- R52, R56: frames that decode decode to a wire form with the same command byte and as many frames, and a write form has
exactly those frames (the fillers of a read carry nothing). R55: frames decode exactly when there is a data byte and bit 6 of the
command byte is set exactly when there is more than one; a command byte alone, bit 6 set with one data byte and bit 6 clear with
several are each rejected (the names of the rejections are the model's: log 22). -/
def Obligations.DecodedFramesAreOfTheirForm : Prop :=
  (∀ (bs : List Byte) (i : Instr), decodeFrames bs = .ok i →
    i.isWire = true ∧ (encode i).length = bs.length ∧ (encode i).head? = bs.head? ∧
      (cmdDir (bs.headD 0) = false → encode i = bs)) ∧
  (∀ (c : Byte) (data : List Byte),
    ((∃ i, decodeFrames (c :: data) = .ok i) ↔ data ≠ [] ∧ (c.getLsbD 6 = true ↔ 1 < data.length)) ∧
    (data = [] → decodeFrames (c :: data) = .error .noData) ∧
    (c.getLsbD 6 = true → data.length = 1 → decodeFrames (c :: data) = .error .multiWithOne) ∧
    (c.getLsbD 6 = false → 1 < data.length → decodeFrames (c :: data) = .error .singleWithMany))

/-- R35: bit 7 goes first and bit 0 last, in both directions; a receiver that shifts the bits of a frame in in wire order holds
the byte. Of the sixteen edges of a frame the first of each pair is low and the second high, and the edges sampled carry both
bytes: R53's inference from the idle level, and the model's functions for it (log 28). -/
def Obligations.FrameCarriesBothBytesMsbFirst : Prop :=
  ∀ m d : Byte,
    (∀ i, i < 8 → (wireBits m)[i]? = some (m.getLsbD (7 - i))) ∧ ofWireBits (wireBits m) = m ∧
      ((frameEdges m d).map WireEdge.clock) = (List.replicate 8 [false, true]).flatten ∧
      ((sampledEdges (frameEdges m d)).map WireEdge.dataOut) = wireBits m ∧
      ((sampledEdges (frameEdges m d)).map WireEdge.dataIn) = wireBits d

/-! ## What a step runs -/

/-- When the next request of the running context is frames that decode to an instruction, the step is that instruction's
meaning, after the device's move and with the request taken off the list (the list of requests is the model's: log 2); frames of
no form are refused (R55; log 22). -/
def Obligations.StepRunsDecodedFrames : Prop :=
  ∀ (s : State) (bs : List Byte) (rest : List Request),
    (s.thread s.host.context).call = none → (s.thread s.host.context).todo = .frames bs :: rest →
    waitsForBus s = false → interruptTaken (deviceMove s) = false →
    (∀ i, decodeFrames bs = .ok i → step s = exec i ((deviceMove s).popped rest)) ∧
    (∀ e, decodeFrames bs = .error e → step s = .refused (.badFrames e))

/-- The same for a request of one of the operations of R57 (the list of requests is the model's: log 2). -/
def Obligations.StepRunsRequestedOperation : Prop :=
  ∀ (s : State) (i : Instr) (rest : List Request),
    (s.thread s.host.context).call = none → (s.thread s.host.context).todo = .op i :: rest →
    waitsForBus s = false → interruptTaken (deviceMove s) = false →
    step s = exec i ((deviceMove s).popped rest)

/-- A table word placed by withFetchWord, padded with zero data frames (log 22), is what the next step runs, on a block that is
ready to open (log 2). That no location of the device changes before it runs is the model's choice for a device other than the
reference one (log 8). -/
def Obligations.PlacedTableWordRunsNext : Prop :=
  ∀ (s : State) (nbits w : Nat) (i : Instr), decodeTableWord nbits w = some i →
    ∃ t, step (s.withFetchWord nbits w) = exec i t ∧ readyToOpen t ∧ t.par = s.par ∧ t.dev.regs = s.dev.regs ∧
      t.host.ordinary.todo = []

/-! ## The status flags -/

/-- R65: overrun, mode fault, checksum error, ready, not ready, in that order. -/
def Obligations.ClassificationPriority : Prop :=
  ∀ (f : Snapshot) (ready : Bool),
    (f.overrun = true → classify f ready = .fault .overrun) ∧
    (f.overrun = false → f.modeFault = true → classify f ready = .fault .modeFault) ∧
    (f.overrun = false → f.modeFault = false → f.checksumError = true → classify f ready = .fault .checksumError) ∧
    (f.overrun = false → f.modeFault = false → f.checksumError = false → ready = true → classify f ready = .ready ()) ∧
    (f.overrun = false → f.modeFault = false → f.checksumError = false → ready = false →
      classify f ready = .notYetReady)

/-- R69: the outcome tags of the two attempts, row by row of the table. -/
def Obligations.SnapshotOutcomeTable : Prop :=
  ∀ f : Snapshot,
    (classifySend f, classifyReceive f) =
      match f.overrun, f.modeFault, f.checksumError, f.txReady, f.rxReady with
      | true, _, _, _, _ => (.fault .overrun, .fault .overrun)
      | false, true, _, _, _ => (.fault .modeFault, .fault .modeFault)
      | false, false, true, _, _ => (.fault .checksumError, .fault .checksumError)
      | false, false, false, true, true => (.ready (), .ready ())
      | false, false, false, true, false => (.ready (), .notYetReady)
      | false, false, false, false, true => (.notYetReady, .ready ())
      | false, false, false, false, false => (.notYetReady, .notYetReady)

/-! ## The four primitives -/

/-- R61: configured, the line goes to its low level and nothing else changes but the device's view of the line and the
record of the call; not configured, the request is refused. The device awaits a command then: R163 for the reference device, at
every assertion. Any other device on a line that is asserted already is locked and stays as it is, which the model deduces from R26
(log 29); that the assertion leaves such a device's locations and the sensor's three bits as they were is the model's choice (logs 8
and 27). -/
def Obligations.SelectAssertDrivesLineLow : Prop :=
  SelectLevel.high .asserted = false ∧
  (∀ s : State, readyToOpen s →
    exec .selectAssert s =
      .next { s with
        sel := .asserted
        dev := { s.dev with
          phase := if s.env ≠ .reference ∧ s.sel = .asserted then s.dev.phase else .awaitCmd }
        calls := s.calls ++ [.selectAssert] }) ∧
  (∀ s : State, s.busy = false → s.selCfg = false → exec .selectAssert s = .refused .selectNotConfigured)

/-- R62: the same for the high, idle level; deasserting a deasserted line is admitted. The device is unselected then: R163 for the
reference device. That no frame is cut short by it (log 31), and that it leaves the locations and the sensor's three bits of a device
other than the reference one as they were (logs 8 and 27), are the model's choices. -/
def Obligations.SelectDeassertDrivesLineHigh : Prop :=
  SelectLevel.high .deasserted = true ∧
  (∀ s : State, readyToOpen s →
    exec .selectDeassert s =
      .next { s with
        sel := .deasserted
        dev := { s.dev with phase := .idle }
        calls := s.calls ++ [.selectDeassert] }) ∧
  (∀ s : State, s.busy = false → s.selCfg = false → exec .selectDeassert s = .refused .selectNotConfigured)

/-- R63, R66, R68: an ATTEMPT_SEND makes one StatusRead; ready, it hands the byte over, once; not ready or faulted, no byte
moves and the device is as it was. The outcome goes to the context that asked (log 14); the transactor, the parameters and
every location but the one a data frame of a write stores to are unchanged, and that one holds the byte (R36, R86, R88, R89); that a
device other than the reference one holds it then, and changes no other location, is the model's choice (log 8). Ready, the device
takes the frame: the reference one by R164, any other as followFrame has it (logs 10, 30 and 31). Ready, with a reference device that takes no frame, the attempt is refused (R163, R164). -/
def Obligations.AttemptSendCompletes : Prop :=
  ∀ (s : State) (b : Byte) (f : Snapshot), s.busy = false → shownFlags s = some f →
    (classifySend f = .ready () → frameTaken s = false → exec (.attemptSend b) s =
      .refused (if s.dev.phase = .idle then .frameWhileIdle else .badRequest .pointerWrap)) ∧
    ((classifySend f = .ready () → frameTaken s = true) →
    ∃ t, exec (.attemptSend b) s = .next t ∧ SameTransactor s t ∧ t.env = s.env ∧ t.par = s.par ∧ t.per.flags = f ∧
      t.host = (s.deliver s.host.context (.send (classifySend f))).host ∧
      t.calls = s.calls ++ (if classifySend f = .ready () then [.statusRead f, .dataWrite b] else [.statusRead f]) ∧
      (classifySend f = .ready () → t.per.txByte = b) ∧
      (classifySend f ≠ .ready () → t.per.txByte = s.per.txByte ∧ t.dev = s.dev) ∧
      (classifySend f = .ready () → s.env = .reference → ∃ r, referenceFrame s.par.dummy b s.dev = .next (r, t.dev)) ∧
      (classifySend f = .ready () → s.env ≠ .reference →
        t.dev = followFrame s.par (if s.env = .oracle then s.draws + 1 else s.draws) b s.dev) ∧
      SameRegsBut (if classifySend f = .ready () then storeTarget s else none) s t ∧
      (∀ a, classifySend f = .ready () → storeTarget s = some a → regRead t.dev a = b))

/-- R64, R66, R68: an ATTEMPT_RECEIVE makes one StatusRead; ready, it takes the received byte, once; not ready or faulted, the
received byte stays. Nothing of the device changes: of the reference one by R161 and R162, of any other by the model's choices, since a
frame has all its effects at its send (logs 10 and 31) and no location changes by itself (log 8). The outcome goes to the context that
asked (log 14). -/
def Obligations.AttemptReceiveCompletes : Prop :=
  ∀ (s : State) (f : Snapshot) (v : Byte), s.busy = false → shownFlags s = some f →
    (classifyReceive f = .ready () → shownByte s = some v) →
    ∃ t, exec .attemptReceive s = .next t ∧ SameTransactor s t ∧ t.env = s.env ∧ t.par = s.par ∧ t.dev = s.dev ∧
      t.per.txByte = s.per.txByte ∧ t.per.flags = f ∧
      (match classifyReceive f with
        | .ready _ =>
            t.host = (s.deliver s.host.context (.receive (.ready v))).host ∧ t.per.rxByte = v ∧
              (s.env = .reference → t.per.rxFull = false) ∧ t.calls = s.calls ++ [.statusRead f, .dataRead v]
        | .notYetReady =>
            t.host = (s.deliver s.host.context (.receive .notYetReady)).host ∧ t.per.rxByte = s.per.rxByte ∧
              t.per.rxFull = s.per.rxFull ∧ t.calls = s.calls ++ [.statusRead f]
        | .fault k =>
            t.host = (s.deliver s.host.context (.receive (.fault k))).host ∧ t.per.rxByte = s.per.rxByte ∧
              t.per.rxFull = s.per.rxFull ∧ t.calls = s.calls ++ [.statusRead f])

/-! ## EXCHANGE -/

/-- R72, R73: admitted, an EXCHANGE latches its operands, asserts the line and stands at the first position, and nothing else
changes; otherwise it is refused under the name the table of R72 gives (the first row that fails, log 20). The device's view
of the assertion is that of SELECT_ASSERT: R163's for the reference device, for any other the model's deduction from R26 where the line
is asserted already (log 29); that the assertion leaves such a device's locations and the sensor's three bits as they were is the
model's choice (logs 8 and 27). -/
def Obligations.ExchangeAdmission : Prop :=
  ∀ (s : State) (bytesOut : List Byte) (mask : List Bool),
    (readyToOpen s → mask.length = bytesOut.length → bytesOut.length ≤ s.par.maxLen + 1 →
      exec (.exchange bytesOut mask) s = .next (openedState .exchange bytesOut mask s)) ∧
    (s.selCfg = false → exec (.exchange bytesOut mask) s = .refused .selectNotConfigured) ∧
    (s.selCfg = true → s.busy = true → exec (.exchange bytesOut mask) s = .refused .reentrantExchange) ∧
    (readyToOpen s → mask.length ≠ bytesOut.length →
      exec (.exchange bytesOut mask) s = .refused (.badRequest .malformedRequest)) ∧
    (readyToOpen s → mask.length = bytesOut.length → s.par.maxLen + 1 < bytesOut.length →
      exec (.exchange bytesOut mask) s = .refused (.badRequest .tooLong))

/-- R74: at (Send, i) a step is one ATTEMPT_SEND of the latched byte: not ready stays, ready goes to (Recv, i), a fault is
stored and goes to (Close, i). The transactor is otherwise unchanged, and so is the host but for the device's move. But for that
move the device changes only when the byte is sent: the reference one by R164, any other as followFrame has it (logs 10, 30 and 31).
The one location that changes is that of a write's data frame, which holds the byte (R36, R86, R88, R89); that a device other than
the reference one holds it then, and changes no other location, is the model's choice (log 8). Ready, with a reference device that takes no frame, the
step is refused (R163, R164). -/
def Obligations.SendStepFollowsItsRow : Prop :=
  ∀ (s : State) (i : Nat) (b : Byte) (f : Snapshot),
    waitsForBus s = true → interruptTaken (deviceMove s) = false → s.seq = .send i → s.out[i]? = some b →
    shownFlags (deviceMove s) = some f →
    (classifySend f = .ready () → frameTaken s = false →
      step s = .refused (if s.dev.phase = .idle then .frameWhileIdle else .badRequest .pointerWrap)) ∧
    ((classifySend f = .ready () → frameTaken s = true) →
    ∃ t, step s = .next t ∧ t.host = (deviceMove s).host ∧
      (classifySend f ≠ .ready () → t.dev = (deviceMove s).dev) ∧
      (classifySend f = .ready () → s.env = .reference → ∃ r, referenceFrame s.par.dummy b s.dev = .next (r, t.dev)) ∧
      (classifySend f = .ready () → s.env ≠ .reference →
        t.dev = followFrame s.par
          (if s.env = .oracle then (deviceMove s).draws + 1 else (deviceMove s).draws) b (deviceMove s).dev) ∧
      SameRegsBut (if classifySend f = .ready () then storeTarget s else none) s t ∧
      (∀ a, classifySend f = .ready () → storeTarget s = some a → regRead t.dev a = b) ∧
      (match classifySend f with
        | .notYetReady => SameTransactor s t ∧ t.calls = s.calls ++ [.statusRead f]
        | .ready _ => SameTransactor { s with seq := .recv i } t ∧ t.calls = s.calls ++ [.statusRead f, .dataWrite b]
        | .fault k => SameTransactor { s with seq := .close i, res := some k } t ∧ t.calls = s.calls ++ [.statusRead f]))

/-- R75, R76, R78: at (Recv, i) a step is one ATTEMPT_RECEIVE: not ready stays; ready collects the byte if this position is kept
and goes on to the next byte or to the close; a fault is stored and goes to (Close, i). The host and the device are as they were but
for the device's own move, which is the model's choice (log 11); that the receive has no effect on a device other than the
reference one, its pending condition included, is the model's choice, since a frame has all its effects at its send (logs 10 and 31)
and no location changes by itself (log 8). -/
def Obligations.ReceiveStepFollowsItsRow : Prop :=
  ∀ (s : State) (i : Nat) (kept : Bool) (f : Snapshot) (v : Byte),
    waitsForBus s = true → interruptTaken (deviceMove s) = false → s.seq = .recv i → s.keep[i]? = some kept →
    shownFlags (deviceMove s) = some f → (classifyReceive f = .ready () → shownByte (deviceMove s) = some v) →
    ∃ t, step s = .next t ∧ SameRegsBut none s t ∧ t.host = (deviceMove s).host ∧ t.dev = (deviceMove s).dev ∧
      t.dev = { s.dev with dataReady := t.dev.dataReady } ∧
      (match classifyReceive f with
        | .notYetReady => SameTransactor s t ∧ t.calls = s.calls ++ [.statusRead f]
        | .ready _ =>
            SameTransactor
              { s with
                inb := if kept then s.inb ++ [v] else s.inb
                seq := if i + 1 < s.n then .send (i + 1) else .close s.n } t ∧
              t.calls = s.calls ++ [.statusRead f, .dataRead v]
        | .fault k => SameTransactor { s with seq := .close i, res := some k } t ∧ t.calls = s.calls ++ [.statusRead f])

/-- R77: at (Close, i) a step deasserts the line, whatever happened before, leaves the block idle and returns the fault if one
was stored, else the bytes collected, to the operation that waits, and by it to the context that asked (R86, R87; log 13). A READ
that succeeded puts the bytes in that context's buffer (R87), and only a READ writes the buffer (one that failed as R94 has it, with draws of its own: log 12). The device is unselected (R62,
R163). The rest of the transactor, the peripheral, the other context and the rest of the host are as they were, and so is the rest of
the device, but for the device's own move (log 11). That no location changes is the model's choice for a device other than the
reference one (log 8), and so is that a deassertion after a fault cuts no frame short (log 31). -/
def Obligations.CloseStepDeassertsAndReturns : Prop :=
  ∀ (s : State) (i : Nat), waitsForBus s = true → interruptTaken (deviceMove s) = false → s.selCfg = true →
    s.seq = .close i →
    ∃ t, step s = .next t ∧ SameTransactor { s with sel := .deasserted, seq := .idle, busy := false } t ∧
      t.calls = s.calls ++ [.selectDeassert] ∧ SameRegsBut none s t ∧
      t.dev = { (deviceMove s).dev with phase := .idle } ∧ t.per = s.per ∧ t.env = s.env ∧ t.script = s.script ∧ t.par = s.par ∧
      (t.thread s.owner).result =
        some (match s.caller, s.res with
          | .exchange, some k => .exchange (.err k)
          | .exchange, none => .exchange (.ok s.inb)
          | .write, some k => .write (.err k)
          | .write, none => .write (.ok ())
          | .read _, some k => .read (.err k)
          | .read _, none => .read (.ok s.inb)) ∧
      (∀ n, s.caller = .read n → s.res = none → (t.thread s.owner).buffer = s.inb) ∧
      ((∀ n, s.caller ≠ .read n) → (t.thread s.owner).buffer = (s.thread s.owner).buffer) ∧
      (t.thread s.owner).todo = (s.thread s.owner).todo ∧ (t.thread s.owner).call = (s.thread s.owner).call ∧
      (∀ c, c ≠ s.owner → t.thread c = s.thread c) ∧
      t.host.context = s.host.context ∧ t.host.ctl = s.host.ctl ∧ t.host.isr = s.host.isr ∧
      t.host.irqOn = s.host.irqOn ∧ t.host.irq = (deviceMove s).host.irq

/-- R78, R129: a fault seen by either attempt ends the transaction in two steps: no data moves, the line is deasserted, the
block is idle, and the waiting operation, an EXCHANGE, a WRITE or a READ, returns that fault. That no location changes is the model's
choice for a device other than the reference one (log 8), and so is that the deassertion cuts no frame short (log 31). -/
def Obligations.FaultClosesTheTransaction : Prop :=
  ∀ (s : State) (i : Nat) (f : Snapshot) (k : FaultKind),
    waitsForBus s = true → s.host.irqOn = false → s.selCfg = true →
    i < s.out.length → i < s.keep.length → shownFlags (deviceMove s) = some f →
    ((s.seq = .send i ∧ classifySend f = .fault k) ∨ (s.seq = .recv i ∧ classifyReceive f = .fault k)) →
    ∃ t, Sys2Proof.core.run 2 s = .next t ∧ t.sel = .deasserted ∧ t.seq = .idle ∧ t.busy = false ∧
      t.calls = s.calls ++ [.statusRead f, .selectDeassert] ∧
      (t.thread s.owner).result =
        some (match s.caller with
          | .exchange => .exchange (.err k)
          | .write => .write (.err k)
          | .read _ => .read (.err k)) ∧
      SameRegsBut none s t

/-- R81: as long as the awaited flag does not come, and no fault flag, the sequencer stays where it is, whatever else the
snapshots show: there is no bound. -/
def Obligations.RetryHasNoBound : Prop :=
  ∀ (fs : List Snapshot) (s : State) (i : Nat) (rest : List Snapshot),
    s.env = .scripted → waitsForBus s = true → s.host.irqOn = false →
    s.script.snapshots = fs ++ rest → i < s.out.length → i < s.keep.length →
    ((s.seq = .send i ∧ ∀ f ∈ fs, classifySend f = .notYetReady) ∨
      (s.seq = .recv i ∧ ∀ f ∈ fs, classifyReceive f = .notYetReady)) →
    ∃ t, Sys2Proof.core.run fs.length s = .next t ∧ SameTransactor s t ∧ t.script.snapshots = rest ∧
      t.calls = s.calls ++ fs.map .statusRead

/-- R79: the steps of an admitted EXCHANGE, over a script that the big-step reading of R79 runs through, make exactly its
calls in its order, deliver its result, and leave the block idle with the line deasserted. -/
def Obligations.ExchangeStepsRefineBigStep : Prop :=
  ∀ (s : State) (bytesOut : List Byte) (mask : List Bool) (cs : List Call) (r : Res (List Byte)) (left : Script),
    readyToOpen s → s.env = .scripted → s.host.irqOn = false → mask.length = bytesOut.length →
    bytesOut.length ≤ s.par.maxLen + 1 → bigExchange bytesOut mask s.script = some (cs, r, left) →
    ∃ t k u, exec (.exchange bytesOut mask) s = .next t ∧ Sys2Proof.core.run k t = .next u ∧
      u.seq = .idle ∧ u.busy = false ∧ u.sel = .deasserted ∧ u.calls = s.calls ++ cs ∧ u.script = left ∧
      (u.thread s.host.context).result = some (.exchange r)

/-! ## WRITE, READ and the wire forms -/

/-- R86: an admitted WRITE opens one transaction: the command byte with bit 7 clear and bit 6 set when there is more than one
byte, then the payload, nothing kept. What the assertion leaves of a device other than the reference one is the model's (logs 8, 27
and 29). -/
def Obligations.WriteOpensItsTransaction : Prop :=
  ∀ (s : State) (a : Nat) (payload : List Byte), readyToOpen s → accessAdmitted s.par.maxLen a payload.length →
    exec (.write a payload) s =
      .next (openedState .write (BitVec.ofNat 8 ((if 1 < payload.length then 0x40 else 0) + a) :: payload)
        (List.replicate (payload.length + 1) false) s)

/-- R87: an admitted READ opens one transaction: the command byte with bit 7 set and bit 6 set when more than one byte is
wanted, then one filler a byte, all received bytes kept but the first (the filler is 0x00: log 4). What the assertion leaves of a
device other than the reference one is the model's (logs 8, 27 and 29). -/
def Obligations.ReadOpensItsTransaction : Prop :=
  ∀ (s : State) (a n : Nat), readyToOpen s → accessAdmitted s.par.maxLen a n →
    exec (.read a n) s =
      .next (openedState (.read n) (BitVec.ofNat 8 ((if 1 < n then 0xC0 else 0x80) + a) :: List.replicate n 0x00)
        (false :: List.replicate n true) s)

/-- R36, R51, R92, R93: WRITE and READ with operands that fail a check are refused in every state, before anything else; which
reason is named when several fail is the model's choice, the first in the order R92 lists them (log 20). -/
def Obligations.AccessRefusals : Prop :=
  ∀ (s : State) (a n : Nat) (payload : List Byte), payload.length = n →
    (0x3F < a → exec (.write a payload) s = .refused (.badRequest .addressOutOfRange) ∧
      exec (.read a n) s = .refused (.badRequest .addressOutOfRange)) ∧
    (a ≤ 0x3F → n = 0 → exec (.write a payload) s = .refused (.badRequest .emptyPayload) ∧
      exec (.read a n) s = .refused (.badRequest .emptyPayload)) ∧
    (a ≤ 0x3F → 1 ≤ n → s.par.maxLen < n → exec (.write a payload) s = .refused (.badRequest .tooLong) ∧
      exec (.read a n) s = .refused (.badRequest .tooLong)) ∧
    (a ≤ 0x3F → 1 ≤ n → n ≤ s.par.maxLen → 0x3F < a + n - 1 →
      exec (.write a payload) s = .refused (.badRequest .pointerWrap) ∧
      exec (.read a n) s = .refused (.badRequest .pointerWrap))

/-- R88 to R91: each wire form opens the transaction of its frames (that the block can be asked for a form itself is the
model's choice: log 1; that the fillers of a read are 0x00 is log 4; what the assertion leaves of a device other than the reference
one is logs 8, 27 and 29). A multi-byte form with fewer than two data
bytes is no request the block can make (R55); that it is refused under the name formMismatch, before anything else, is the model's
choice (log 20). -/
def Obligations.WireFormsOpenTheirFrames : Prop :=
  (∀ (s : State) (a : RegAddr) (ps : List Byte) (n : Nat),
    (ps.length < 2 → exec (.wrm a ps) s = .refused (.badRequest .formMismatch)) ∧
    (n < 2 → exec (.rdm a n) s = .refused (.badRequest .formMismatch))) ∧
  ∀ (s : State) (a : RegAddr), readyToOpen s →
    (∀ p, accessAdmitted s.par.maxLen a.toNat 1 →
      exec (.wr1 a p) s = .next (openedState .write [BitVec.ofNat 8 a.toNat, p] [false, false] s)) ∧
    (∀ ps : List Byte, 2 ≤ ps.length → accessAdmitted s.par.maxLen a.toNat ps.length →
      exec (.wrm a ps) s =
        .next (openedState .write (BitVec.ofNat 8 (0x40 + a.toNat) :: ps) (List.replicate (ps.length + 1) false) s)) ∧
    (accessAdmitted s.par.maxLen a.toNat 1 →
      exec (.rd1 a) s = .next (openedState (.read 1) [BitVec.ofNat 8 (0x80 + a.toNat), 0x00] [false, true] s)) ∧
    (∀ n, 2 ≤ n → accessAdmitted s.par.maxLen a.toNat n →
      exec (.rdm a n) s =
        .next (openedState (.read n) (BitVec.ofNat 8 (0xC0 + a.toNat) :: List.replicate n 0x00)
          (false :: List.replicate n true) s))

/-- R86, R87: a WRITE or READ is its wire form: WR1 or RD1 for one byte, WRM or RDM for more. -/
def Obligations.RegisterAccessIsItsWireForm : Prop :=
  ∀ (s : State) (a : RegAddr),
    (∀ p, exec (.write a.toNat [p]) s = exec (.wr1 a p) s) ∧
    (∀ ps : List Byte, 2 ≤ ps.length → exec (.write a.toNat ps) s = exec (.wrm a ps) s) ∧
    exec (.read a.toNat 1) s = exec (.rd1 a) s ∧
    (∀ n, 2 ≤ n → exec (.read a.toNat n) s = exec (.rdm a n) s)

/-- R94: after a READ that failed the caller's buffer is unspecified; that it is then as many slots as bytes were wanted, each a
free value of its own, is the model's choice (the spec's D19; log 12). -/
def Obligations.FailedReadLeavesFreeSlots : Prop :=
  ∀ (s : State) (i n : Nat) (k : FaultKind), waitsForBus s = true → interruptTaken (deviceMove s) = false →
    s.selCfg = true → s.seq = .close i → s.caller = .read n → s.res = some k →
    ∃ t, step s = .next t ∧ (t.thread s.owner).result = some (.read (.err k)) ∧
      (t.thread s.owner).buffer.length = n ∧
      ∀ j, j < n → (t.thread s.owner).buffer[j]? = some (Config.drawSlot ((deviceMove s).draws + j))

/-- R97: in the reference environment, with the receiver empty and no overrun, a WRITE returns Ok and a READ of the same
locations after it returns the bytes written, for every address, payload and delay. -/
def Obligations.WriteThenReadRoundTrip : Prop :=
  ∀ (s : State) (a : Nat) (p : List Byte),
    readyToOpen s → s.env = .reference → s.per.rxFull = false → s.per.ovr = false → s.host.irqOn = false →
    s.host.context = .ordinary → s.host.ordinary.call = none →
    s.host.ordinary.todo = [.op (.write a p), .op (.read a p.length)] → accessAdmitted s.par.maxLen a p.length →
    ∃ k₁ t k₂ u, Sys2Proof.core.run k₁ s = .next t ∧ t.host.ordinary.result = some (.write (.ok ())) ∧
      t.busy = false ∧ t.host.ordinary.todo = [.op (.read a p.length)] ∧
      Sys2Proof.core.run k₂ t = .next u ∧ u.host.ordinary.result = some (.read (.ok p)) ∧ u.host.ordinary.buffer = p ∧
      runEnded u ∧ regsRead u.dev a p.length = p

/-! ## The device and the reference peripheral -/

/-- R31, R36, R86, R88, R89, R164: no step changes a location of the device but the one the device's pointer stands at in a write
transaction, and only a step that hands a byte over changes that one, which holds the byte then. That a device other than the
reference one holds it, and changes no location by itself, is the model's choice (log 8). -/
def Obligations.StepStoresOnlyAtThePointer : Prop :=
  ∀ s t : State, step s = .next t →
    SameRegsBut (storeTarget s) s t ∧
    (∀ f b a, t.calls = s.calls ++ [.statusRead f, .dataWrite b] → storeTarget s = some a → regRead t.dev a = b) ∧
    ((∀ f b, t.calls ≠ s.calls ++ [.statusRead f, .dataWrite b]) → SameRegsBut none s t)

/-- R163, R164: the reference device, phase by phase. R165: its frames have no effect but storing, and in the reference environment no
step changes the power state, the interrupt enable or the pending condition. -/
def Obligations.ReferenceDeviceFrames : Prop :=
  (∀ s t : State, s.env = .reference → step s = .next t →
    t.dev.powered = s.dev.powered ∧ t.dev.drdyEnabled = s.dev.drdyEnabled ∧ t.dev.dataReady = s.dev.dataReady) ∧
  ∀ (dummy b : Byte) (d : Device),
    (∀ r e, referenceFrame dummy b d = .next (r, e) →
      e.powered = d.powered ∧ e.drdyEnabled = d.drdyEnabled ∧ e.dataReady = d.dataReady) ∧
    (d.phase = .idle → referenceFrame dummy b d = .refused .frameWhileIdle) ∧
    (d.phase = .exhausted → referenceFrame dummy b d = .refused (.badRequest .pointerWrap)) ∧
    (d.phase = .awaitCmd → ∃ e, referenceFrame dummy b d = .next (dummy, e) ∧ e.phase = .data ∧ e.regs = d.regs ∧
      e.dir = b.getLsbD 7 ∧ e.multi = b.getLsbD 6 ∧ e.ptr.toNat = b.toNat % 64) ∧
    (d.phase = .data → ∃ r e, referenceFrame dummy b d = .next (r, e) ∧ e.dir = d.dir ∧ e.multi = d.multi ∧
      (d.dir = true → r = regRead d d.ptr ∧ e.regs = d.regs) ∧
      (d.dir = false → r = dummy ∧ regRead e d.ptr = b ∧ ∀ a, a ≠ d.ptr → regRead e a = regRead d a) ∧
      (d.multi = false → e.ptr = d.ptr ∧ e.phase = .data) ∧
      (d.multi = true → d.ptr ≠ 0x3F → e.ptr.toNat = d.ptr.toNat + 1 ∧ e.phase = .data) ∧
      (d.multi = true → d.ptr = 0x3F → e.phase = .exhausted))

/-- R161: a StatusRead shows the flags and then counts down once, and changes nothing else; after k snapshots a send is ready when at most k were to be waited for, and, with a byte received, so is a
receive. R162: a DataRead starts the wait for the next send anew and a frame the wait for its receive; nothing else of the
peripheral but the receiver changes with a DataRead. -/
def Obligations.ReferenceDelaysCountDown : Prop :=
  (∀ s : State, s.env = .reference →
    statusRead s = .next { s with
      per := { s.per.tick with flags := referenceFlags s.per }
      calls := s.calls ++ [.statusRead (referenceFlags s.per)] }) ∧
  (∀ p : Peripheral, p.tick = { p with
    waitTx := p.waitTx - 1
    waitRx := if p.rxFull then p.waitRx - 1 else p.waitRx }) ∧
  (∀ (p : Peripheral) (k : Nat),
    (referenceFlags (Peripheral.tick^[k] p)).txReady = decide (p.waitTx ≤ k) ∧
    (p.rxFull = true → (referenceFlags (Peripheral.tick^[k] p)).rxReady = decide (p.waitRx ≤ k)) ∧
    (p.rxFull = false → (referenceFlags (Peripheral.tick^[k] p)).rxReady = false)) ∧
  (∀ s : State, s.env = .reference →
    dataRead s = .next { s with
      per := { s.per with rxFull := false, waitTx := s.per.delayTx }
      calls := s.calls ++ [.dataRead s.per.rxByte] }) ∧
  (∀ (s t : State) (b : Byte), s.env = .reference → dataWrite b s = .next t →
    t.per.waitRx = s.per.delayRx ∧ t.per.waitTx = s.per.waitTx)

/-- R162: in the reference environment a frame while the previous byte is unread raises overrun and keeps that byte; otherwise
the reply is received. No step takes the overrun away, so every later snapshot shows it. -/
def Obligations.UnreadByteRaisesOverrun : Prop :=
  (∀ s t : State, s.env = .reference → s.per.ovr = true → step s = .next t →
    t.env = .reference ∧ t.per.ovr = true ∧ shownFlags t = some (referenceFlags t.per) ∧
      (referenceFlags t.per).overrun = true) ∧
  ∀ (s : State) (b : Byte), s.env = .reference → frameTaken s = true →
    ∃ r d t, referenceFrame s.par.dummy b s.dev = .next (r, d) ∧ dataWrite b s = .next t ∧ t.dev = d ∧
      t.per.waitRx = s.per.delayRx ∧
      (s.per.rxFull = true → t.per.rxByte = s.per.rxByte ∧ (referenceFlags t.per).overrun = true) ∧
      (s.per.rxFull = false → t.per.rxByte = r ∧ t.per.rxFull = true ∧ t.per.ovr = s.per.ovr)

/-- R36, R40, R86, R134, R143: outside the reference environment a data frame of a write puts its byte in the location at the
pointer and changes no other (log 8), a data frame to the primary control register turns the sensing elements
on, one to the interrupt-control register with the byte step 3 stores there enables the data-ready interrupt, and the last of
the six measurement registers read in one transaction clears the pending condition. A step sets the pending condition only with
the sensing elements on and the interrupt enabled, which is the model's choice (log 11; R134 leaves it to the device), and turns the elements on, or changes the enable, only by a data frame sent to
the one register or the other; it clears the condition only by a data frame that reads one of the six measurement registers. That a frame takes effect when it is sent is the model's choice (logs 10 and 31), in a
transaction whose frames do not fit its command byte too (log 30), and so is that no other access changes these three, since R40
excludes no further side effect (log 32), and that an invalid pair of rate and cutoff has these effects like any other (R157, log
33). Outside the reference environment a DataWrite is always taken and does to the device
what followFrame says: a command byte is latched, a data frame has these effects and moves the pointer by the multi-byte bit, and a
frame in another phase does nothing (logs 10, 30 and 31). -/
def Obligations.SensorSideEffects : Prop :=
  (∀ (s : State) (b : Byte), s.env ≠ .reference → ∃ t, dataWrite b s = .next t ∧
    t.dev = followFrame s.par s.draws b s.dev ∧ t.per.txByte = b ∧ t.calls = s.calls ++ [.dataWrite b]) ∧
  (∀ (p : Params) (k : Nat) (b : Byte) (d : Device),
    (d.phase = .awaitCmd → followFrame p k b d =
      { d with phase := .data, dir := b.getLsbD 7, multi := b.getLsbD 6, ptr := b.setWidth 6, first := b.setWidth 6 }) ∧
    (d.phase = .idle ∨ d.phase = .exhausted → followFrame p k b d = d) ∧
    (d.phase = .data → (followFrame p k b d).dir = d.dir ∧ (followFrame p k b d).multi = d.multi ∧
      (followFrame p k b d).first = d.first ∧
      (d.multi = false → (followFrame p k b d).ptr = d.ptr ∧ (followFrame p k b d).phase = .data) ∧
      (d.multi = true → d.ptr ≠ 0x3F →
        (followFrame p k b d).ptr.toNat = d.ptr.toNat + 1 ∧ (followFrame p k b d).phase = .data) ∧
      (d.multi = true → d.ptr = 0x3F → (followFrame p k b d).phase = .exhausted))) ∧
  (∀ s t : State, step s = .next t →
    (s.dev.powered = false ∨ s.dev.drdyEnabled = false → s.dev.dataReady = false → t.dev.dataReady = false) ∧
    (t.dev.powered ≠ s.dev.powered → t.dev.powered = true ∧
      s.dev.phase = .data ∧ s.dev.dir = false ∧ s.dev.ptr = s.par.aCtrlPrimary ∧
      ∃ f b, t.calls = s.calls ++ [.statusRead f, .dataWrite b]) ∧
    (t.dev.drdyEnabled ≠ s.dev.drdyEnabled →
      s.dev.phase = .data ∧ s.dev.dir = false ∧ s.dev.ptr = s.par.aCtrlInterrupt ∧
      ∃ f b, t.calls = s.calls ++ [.statusRead f, .dataWrite b]) ∧
    (s.dev.dataReady = true → t.dev.dataReady = false →
      s.dev.phase = .data ∧ s.dev.dir = true ∧ isMeasurement s.par s.dev.ptr = true ∧
      ∃ f b, t.calls = s.calls ++ [.statusRead f, .dataWrite b])) ∧
  ∀ (p : Params) (k : Nat) (b : Byte) (d : Device), d.phase = .data →
    (d.dir = false → regRead (followFrame p k b d) d.ptr = b ∧
      ∀ a, a ≠ d.ptr → regRead (followFrame p k b d) a = regRead d a) ∧
    (d.dir = true → (followFrame p k b d).regs = d.regs) ∧
    (d.dir = false → d.ptr = p.aCtrlPrimary → (followFrame p k b d).powered = true) ∧
    (d.dir = false → d.ptr ≠ p.aCtrlPrimary → (followFrame p k b d).powered = d.powered) ∧
    (d.dir = false → d.ptr ≠ p.aCtrlInterrupt → (followFrame p k b d).drdyEnabled = d.drdyEnabled) ∧
    (d.dir = false → (followFrame p k b d).dataReady = d.dataReady) ∧
    (d.dir = false → d.ptr = p.aCtrlInterrupt →
      (∃ cfg : DeviceConfig, cfg.interruptEnabled = true ∧ (Config.encInterrupt cfg).1 = b) →
      (followFrame p k b d).drdyEnabled = true) ∧
    (d.dir = true → (followFrame p k b d).drdyEnabled = d.drdyEnabled) ∧
    (d.dir = true → (followFrame p k b d).powered = d.powered) ∧
    (d.dir = true → d.ptr.toNat = p.aAxis0Low.toNat + 5 → d.first.toNat ≤ p.aAxis0Low.toNat →
      (followFrame p k b d).dataReady = false) ∧
    (d.dir = true → isMeasurement p d.ptr = false → (followFrame p k b d).dataReady = d.dataReady)

/-! ## The whole machine -/

/-- The reset state is coherent: nothing in flight (R29), and the parameters what R10 and R34 ask of them (log 3). That the
transaction registers are empty then is the model's choice, since R29 leaves them unspecified (log 6), and that no location of the
device has a stored byte is too (log 8). -/
def Obligations.ResetIsCoherent : Prop := Coherent State.reset

/-- R14, R16, R17, R20, R31: every step keeps coherence, from every coherent state: the position stays inside the transaction,
the bytes collected are those of the positions kept, busy says whether a transaction is in flight, the device registers keep
their canonical form, the parameters stay well formed (R10). -/
def Obligations.StepKeepsCoherence : Prop :=
  ∀ s t : State, Coherent s → step s = .next t → Coherent t

/-- The reset state meets the premises of StepKeepsSelectFraming. That the host has no request at all at reset is the model's
choice (logs 6 and 11); the select line is not configured yet (R29), so R30 asks nothing of it. -/
def Obligations.ResetIsFramed : Prop := framedHost State.reset.host = true ∧ SelectFramed State.reset

/-- R30: for a host that leaves the select line to EXCHANGE, WRITE and READ, every step keeps the line asserted exactly while a
transaction is in flight. -/
def Obligations.StepKeepsSelectFraming : Prop :=
  ∀ s t : State, Coherent s → framedHost s.host = true → SelectFramed s → step s = .next t →
    framedHost t.host = true ∧ SelectFramed t

/-- R29, R142: what the spec says reset leaves. That the sensing elements are off is R143's inference from R113; R29 lists the
power state as unspecified. -/
def Obligations.ResetValues : Prop :=
  State.reset.selCfg = false ∧ State.reset.busy = false ∧ State.reset.seq = .idle ∧
    State.reset.host.ctl = .uninitialized ∧ State.reset.dev.powered = false

/-- R142: until the select line is configured every framing operation is refused, and the two attempts are not guarded by it
(under the oracle, which always answers). -/
def Obligations.UnconfiguredLineRefusesFraming : Prop :=
  ∀ (s : State) (i : Instr), s.selCfg = false → s.busy = false → i.wellFormed s.par.maxLen = true →
    ((∀ b, i ≠ .attemptSend b) → i ≠ .attemptReceive → exec i s = .refused .selectNotConfigured) ∧
    (s.env = .oracle → ∀ b, i = .attemptSend b ∨ i = .attemptReceive → ∃ t, exec i s = .next t)

/-- R72, R132, R167: while a transaction is in flight every operation is refused. -/
def Obligations.NothingNestsInATransaction : Prop :=
  ∀ (s : State) (i : Instr), s.selCfg = true → s.busy = true → i.wellFormed s.par.maxLen = true →
    exec i s = .refused .reentrantExchange

/-- R28: no step changes a parameter, or which environment answers. -/
def Obligations.StepKeepsParameters : Prop :=
  ∀ s t : State, step s = .next t → t.par = s.par ∧ t.env = s.env

/-- R45: the operands of a transaction in flight are fixed when it is admitted. -/
def Obligations.OperandsStayLatched : Prop :=
  ∀ s t : State, s.busy = true → step s = .next t →
    t.n = s.n ∧ t.out = s.out ∧ t.keep = s.keep ∧ t.caller = s.caller ∧ t.owner = s.owner

/-- R77: a transaction ends through the close, with the line deasserted, and in no other way. -/
def Obligations.TransactionEndsOnlyByClose : Prop :=
  ∀ s t : State, s.busy = true → step s = .next t → t.busy = false → (∃ i, s.seq = .close i) ∧ t.sel = .deasserted

/-- R80, R18: a step makes the calls of at most one primitive operation, and the level of the select line changes only with a
call of the select primitive that drives it. -/
def Obligations.StepMakesOnePrimitive : Prop :=
  ∀ s t : State, step s = .next t →
    (t.calls = s.calls ∧ t.sel = s.sel) ∨
    (t.calls = s.calls ++ [.selectAssert] ∧ t.sel = .asserted) ∨
    (t.calls = s.calls ++ [.selectDeassert] ∧ t.sel = .deasserted) ∨
    (∃ f, t.calls = s.calls ++ [.statusRead f] ∧ t.sel = s.sel) ∨
    (∃ f b, t.calls = s.calls ++ [.statusRead f, .dataWrite b] ∧ t.sel = s.sel ∧ classifySend f = .ready ()) ∨
    (∃ f v, t.calls = s.calls ++ [.statusRead f, .dataRead v] ∧ t.sel = s.sel ∧ classifyReceive f = .ready ())

/-- R160: with no request left, no call and no interrupt, the transactor of an idle block stays as it is (that the machine goes
on stepping, and that an interrupt request which waits does not keep a run from having ended, are the model's choices: log 23). -/
def Obligations.IdleBlockStaysIdle : Prop :=
  ∀ s : State, runEnded s → interruptTaken (deviceMove s) = false →
    ∃ t, step s = .next t ∧ SameTransactor s t ∧ t.calls = s.calls ∧ runEnded t

/-! ## The host -/

/-- R135: an interrupt is taken between two steps, and neither the block nor the ordinary context moves; after the device's own
move the next state differs in the context that runs, the request and the handler's list of requests, and in nothing else. That a request which
waits is taken as soon as the source is enabled, that the handler starts with the list isr of requests and that the request is
then gone are the model's choice (log 11), and so is where a step ends (log 25). -/
def Obligations.HandlerPreemptsBetweenSteps : Prop :=
  ∀ s : State, interruptTaken (deviceMove s) = true →
    ∃ t, step s = .next t ∧
      t = { deviceMove s with
        host := { s.host with
          context := .handler
          irq := false
          handler := { s.host.handler with todo := s.host.isr } } } ∧
      SameTransactor s t ∧ t.calls = s.calls ∧ t.per = s.per ∧ t.env = s.env ∧ t.script = s.script ∧ t.par = s.par ∧
      t.dev = { s.dev with dataReady := (deviceMove s).dev.dataReady }

/-- R135: while the handler runs the ordinary context does not go on: its record stays, and a transaction of its that is in flight
stands still, with no call made and, but for the device's own move, the peripheral and the device as they were. The handler is left
only when it has nothing more to do, no request, no call, no transaction of its own in flight, and it is left then, so that the ordinary
context goes on; that this takes a step of its own is the model's choice (log 11). -/
def Obligations.HandlerRunsToItsEnd : Prop :=
  (∀ s t : State, s.host.context = .handler → step s = .next t →
    t.host.ordinary = s.host.ordinary ∧
      (s.busy = true → s.owner = .ordinary →
        SameTransactor s t ∧ t.calls = s.calls ∧ t.per = s.per ∧ t.dev = (deviceMove s).dev) ∧
      (t.host.context = .handler ∨
        (t.host.context = .ordinary ∧ waitsForBus s = false ∧ s.host.handler.todo = [] ∧ s.host.handler.call = none))) ∧
  ∀ s : State, s.host.context = .handler → waitsForBus s = false → s.host.handler.todo = [] →
    s.host.handler.call = none →
    step s = .next { deviceMove s with host := { (deviceMove s).host with context := .ordinary } }

/-- R134, R156: while the data-ready condition is pending no new interrupt request is raised; when it sets one is raised, and
only then; a request waits until the handler is entered. When the device sets the condition, that the request is held in irq, and
that it waits while the source is disabled are the model's choice (log 11). R136 (a): disabling or enabling the source sets irqOn
and does nothing else. -/
def Obligations.PendingConditionRaisesNoSecondInterrupt : Prop :=
  (∀ s : State, (deviceMove s).dev.dataReady =
      (s.dev.dataReady ||
        (decide (s.env = .oracle) && (s.dev.powered && (s.dev.drdyEnabled && Config.drawNewData s.draws))))) ∧
  (∀ s t : State, step s = .next t →
    (s.dev.dataReady = true → t.host.irq = true → s.host.irq = true) ∧
    (s.dev.dataReady = false → t.host.irq = false → ¬(s.host.context = .ordinary ∧ t.host.context = .handler) →
      t.dev.dataReady = false) ∧
    t.host.irq = (!interruptTaken (deviceMove s) &&
      (s.host.irq || (!s.dev.dataReady && (deviceMove s).dev.dataReady)))) ∧
  (∀ (s : State) (on : Bool) (rest : List Request), waitsForBus s = false → interruptTaken (deviceMove s) = false →
    (s.thread s.host.context).call = none → (s.thread s.host.context).todo = .setInterrupt on :: rest →
    step s = .next { (deviceMove s).popped rest with
      host := { ((deviceMove s).popped rest).host with irqOn := on } })

/-- R109: the first step of initialize drives the line deasserted and marks it configured, and does nothing else on the
bus; the device is unselected (R163) and, but for its own move, as it was, and so is the peripheral. Asked for while a transaction of
the other context is in flight it is refused, which no rule says of it and the model deduces (log 15). That no location changes is the model's choice for a device other than the reference one (log 8). -/
def Obligations.InitializeConfiguresTheLine : Prop :=
  ∀ (s : State) (cfg : DeviceConfig) (rest : List Request),
    (s.thread s.host.context).call = none → (s.thread s.host.context).todo = .call (.initDevice cfg) :: rest →
    interruptTaken (deviceMove s) = false →
    (s.busy = true → waitsForBus s = false → step s = .refused .reentrantExchange) ∧
    (s.busy = false → ∃ t, step s = .next t ∧ SameTransactor { s with selCfg := true, sel := .deasserted } t ∧
      t.calls = s.calls ++ [.selectDeassert] ∧ (t.thread s.host.context).call = some (.initStart cfg) ∧
      t.host.ctl = s.host.ctl ∧ SameRegsBut none s t ∧ t.dev = { (deviceMove s).dev with phase := .idle } ∧ t.per = s.per)

/-- R110, R114: a wrong identity byte ends initialize with IdentityMismatch: no bus activity, the controller Uninitialized. That
it is Uninitialized also after a re-initialisation in state Ready is the spec's decision in R120, and the model's (log 16). -/
def Obligations.IdentityMismatchWritesNothing : Prop :=
  ∀ (s : State) (cfg : DeviceConfig) (id : Byte), waitsForBus s = false → interruptTaken (deviceMove s) = false →
    (s.thread s.host.context).call = some (.initIdentity cfg) →
    (s.thread s.host.context).result = some (.read (.ok [id])) → id ≠ s.par.deviceId →
    ∃ t, step s = .next t ∧ SameTransactor s t ∧ t.calls = s.calls ∧ t.host.ctl = .uninitialized ∧
      (t.thread s.host.context).call = none ∧ (t.thread s.host.context).result = some (.init .identityMismatch)

/-- R109 to R114: initialize goes through its transactions in one order, the primary control register last: what a step of it
does is what initSuccessor says of its stage and of what the stage's transaction returned. It opens the transaction of the next
stage, with that stage's bytes, or ends with the result and no bus activity. The identity read follows step 1; a matching byte
goes on to the interrupt-control write exactly when the configuration asks for it, else to the range-control write; each write
that returned Ok goes on to the next, and the primary control write ends it. On a block that can open the next transaction the
step answers. That the controller is Uninitialized after a failure in state Ready is R120's decision, and the model's (log 16). -/
def Obligations.InitializeStagesAdvance : Prop :=
  ∀ (s : State) (st : CallStage) (cfg : DeviceConfig), waitsForBus s = false →
    interruptTaken (deviceMove s) = false → (s.thread s.host.context).call = some st → initConfig st = some cfg →
    (∀ t, step s = .next t →
      match initSuccessor s.par st (s.thread s.host.context).result with
      | some (.inl st') =>
          (t.thread s.host.context).call = some st' ∧ initConfig st' = some cfg ∧ t.busy = true ∧ t.seq = .send 0 ∧
            t.out = stageFrames s.par st' ∧ t.calls = s.calls ++ [.selectAssert] ∧ t.host.ctl = s.host.ctl
      | some (.inr r) =>
          (t.thread s.host.context).call = none ∧ (t.thread s.host.context).result = some (.init r) ∧
            SameTransactor s t ∧ t.calls = s.calls ∧
            t.host.ctl = (if r = .ok then .ready else .uninitialized)
      | none => False) ∧
    (∀ st', initSuccessor s.par st (s.thread s.host.context).result = some (.inl st') → readyToOpen s →
      accessAdmitted s.par.maxLen (stageAccess s.par st').1 (stageAccess s.par st').2 → ∃ t, step s = .next t) ∧
    (∀ r, initSuccessor s.par st (s.thread s.host.context).result = some (.inr r) → ∃ t, step s = .next t)

/-- R114: a bus fault in any step of initialize ends it with that fault, the controller Uninitialized, the line still
configured, and no later step issued. That the controller is Uninitialized also after a re-initialisation in state Ready is the
spec's decision in R120, and the model's (log 16). -/
def Obligations.InitializeFaultAborts : Prop :=
  ∀ (s : State) (st : CallStage) (cfg : DeviceConfig) (k : FaultKind), waitsForBus s = false →
    interruptTaken (deviceMove s) = false → (s.thread s.host.context).call = some st → initConfig st = some cfg →
    ((initRank st = 1 ∧ (s.thread s.host.context).result = some (.read (.err k))) ∨
      (2 ≤ initRank st ∧ (s.thread s.host.context).result = some (.write (.err k)))) →
    ∃ t, step s = .next t ∧ SameTransactor s t ∧ t.calls = s.calls ∧ t.host.ctl = .uninitialized ∧
      (t.thread s.host.context).call = none ∧ (t.thread s.host.context).result = some (.init (.fault k))

/-- R108: initialize ends Ready when its last write returned Ok, and no other step makes an uninitialized controller Ready. -/
def Obligations.InitializeEndsReady : Prop :=
  (∀ s t : State, step s = .next t → s.host.ctl = .uninitialized → t.host.ctl = .ready →
    waitsForBus s = false ∧ interruptTaken (deviceMove s) = false ∧
      ∃ cfg, (s.thread s.host.context).call = some (.initPrimary cfg) ∧
        (s.thread s.host.context).result = some (.write (.ok ()))) ∧
  ∀ (s : State) (cfg : DeviceConfig), waitsForBus s = false → interruptTaken (deviceMove s) = false →
    (s.thread s.host.context).call = some (.initPrimary cfg) →
    (s.thread s.host.context).result = some (.write (.ok ())) →
    ∃ t, step s = .next t ∧ SameTransactor s t ∧ t.host.ctl = .ready ∧
      (t.thread s.host.context).call = none ∧ (t.thread s.host.context).result = some (.init .ok)

/-- R117: the two reads of the controller are refused before a successful initialisation. R115, R116: in Ready, on a block that
can open a transaction, read_status opens the READ of one byte at A_STATUS and read_measurement the READ of six bytes from
A_AXIS0_LOW, and the call waits for it (the fillers are 0x00: log 4; what the assertion leaves of a device other than the reference one is the
model's: logs 8, 27 and 29). -/
def Obligations.ReadsNeedAReadyController : Prop :=
  ∀ (s : State) (rest : List Request), waitsForBus s = false →
    interruptTaken (deviceMove s) = false → (s.thread s.host.context).call = none →
    (∀ c, (s.thread s.host.context).todo = .call c :: rest → (c = .readStatus ∨ ∃ sc, c = .readMeasurement sc) →
      s.host.ctl = .uninitialized → step s = .refused .notInitialized) ∧
    ((s.thread s.host.context).todo = .call .readStatus :: rest → s.host.ctl = .ready → readyToOpen s →
      accessAdmitted s.par.maxLen s.par.aStatus.toNat 1 →
      step s = .next ((openedState (.read 1) [BitVec.ofNat 8 (0x80 + s.par.aStatus.toNat), 0x00] [false, true]
        ((deviceMove s).popped rest)).setCall (some .status))) ∧
    (∀ sc, (s.thread s.host.context).todo = .call (.readMeasurement sc) :: rest → s.host.ctl = .ready → readyToOpen s →
      accessAdmitted s.par.maxLen s.par.aAxis0Low.toNat 6 →
      step s = .next ((openedState (.read 6)
        [BitVec.ofNat 8 (0xC0 + s.par.aAxis0Low.toNat), 0x00, 0x00, 0x00, 0x00, 0x00, 0x00]
        [false, true, true, true, true, true, true] ((deviceMove s).popped rest)).setCall (some (.measurement sc))))

/-- R115, R116: the controller's reads return the decoded bytes, or the fault unchanged, and a fault leaves the controller as
it was (R131). -/
def Obligations.ControllerReadsDecode : Prop :=
  ∀ (s : State) (st : CallStage) (r : Result) (expected : Result), waitsForBus s = false →
    interruptTaken (deviceMove s) = false → (s.thread s.host.context).call = some st →
    (s.thread s.host.context).result = some r →
    ((∃ b, st = .status ∧ r = .read (.ok [b]) ∧ expected = .status (.ok (decodeStatus b))) ∨
      (∃ k, st = .status ∧ r = .read (.err k) ∧ expected = .status (.err k)) ∨
      (∃ sc x0 x1 y0 y1 z0 z1, st = .measurement sc ∧ r = .read (.ok [x0, x1, y0, y1, z0, z1]) ∧
        expected = .measurement (.ok (decodeMeasurement x0 x1 y0 y1 z0 z1 (radPerLsb sc)))) ∨
      (∃ sc k, st = .measurement sc ∧ r = .read (.err k) ∧ expected = .measurement (.err k))) →
    ∃ t, step s = .next t ∧ SameTransactor s t ∧ t.host.ctl = s.host.ctl ∧ t.calls = s.calls ∧
      (t.thread s.host.context).call = none ∧ (t.thread s.host.context).result = some expected

/-- R102: the eight flags are the eight bits, and no two bytes decode alike. -/
def Obligations.StatusByteDecodesBitForBit : Prop :=
  (∀ b : Byte, decodeStatus b =
    ⟨b.getLsbD 7, b.getLsbD 6, b.getLsbD 5, b.getLsbD 4, b.getLsbD 3, b.getLsbD 2, b.getLsbD 1, b.getLsbD 0⟩) ∧
  (∀ b c : Byte, decodeStatus b = decodeStatus c → b = c)

/-- R103, R37: the count of an axis is its high byte, signed, times 256 plus its low byte; x, y and z are the counts of the byte
pairs 0 and 1, 2 and 3, 4 and 5, each scaled by the factor; six zero bytes give zeros for any scale (for the two scales the source
does not name the constant is a free one among those of R106's positive finite factor: log 26). -/
def Obligations.AxisCountIsLittleEndianSigned : Prop :=
  (∀ low high : Byte, asSigned16 (wordOf low high) = high.toInt * 256 + low.toNat) ∧
  (∀ (x0 x1 y0 y1 z0 z1 : Byte) (factor : Single),
    decodeMeasurement x0 x1 y0 y1 z0 z1 factor =
      { x := singleScale (x1.toInt * 256 + x0.toNat) factor
        y := singleScale (y1.toInt * 256 + y0.toNat) factor
        z := singleScale (z1.toInt * 256 + z0.toNat) factor }) ∧
  (∀ sc, decodeMeasurement 0 0 0 0 0 0 (radPerLsb sc) = { x := 0x00000000, y := 0x00000000, z := 0x00000000 })

/-- R105, R106: the factor of Dps250 is a positive normal number within 1e-10 of 8.75 * 1e-3 * (π/180); a zero count gives +0.0
for a positive finite factor. A count of one gives a normal factor back, and the product of any 16-bit count other than
zero is the count times the factor up to half a unit in the last place, where it is normal. How far the evaluation of the factor
may be off, how close the product is, and that the opposite count gives the opposite value, rest on the rounding the model takes
(log 17); R106 marks it as general knowledge. -/
def Obligations.ScaledCountIsOdd : Prop :=
  ((radPerLsb .dps250).getLsbD 31 = false ∧ ((radPerLsb .dps250).extractLsb' 23 8).toNat = 114 ∧
    |((2 ^ 23 + ((radPerLsb .dps250).extractLsb' 0 23).toNat : Nat) : ℝ) / 2 ^ 36 - 8.75 * 1e-3 * (Real.pi / 180)| ≤ 1e-10) ∧
  ∀ (i : Int) (f : Single), (f.extractLsb' 23 8).toNat ≠ 255 →
    (f.getLsbD 31 = false → singleScale 0 f = 0x00000000) ∧
    (i ≠ 0 → singleScale (-i) f = singleScale i f ^^^ 0x80000000) ∧
    ((f.extractLsb' 23 8).toNat ≠ 0 → singleScale 1 f = f) ∧
    (i ≠ 0 → -32768 ≤ i → i ≤ 32767 → (f.extractLsb' 23 8).toNat ≠ 0 → (f.extractLsb' 23 8).toNat ≤ 238 →
      |singleValue (singleScale i f) - i * singleValue f| ≤ |i * singleValue f| / 2 ^ 24)
end

