-- ==== Sys2Proof/Laws/State.lean ====
section
/-! SUPPORT. One lemma a field for each update of State. -/

namespace Sys2Proof.Machine

/-! record -/

@[simp] theorem record_selCfg (s : State) (c : Call) : (s.record c).selCfg = s.selCfg := rfl
@[simp] theorem record_sel (s : State) (c : Call) : (s.record c).sel = s.sel := rfl
@[simp] theorem record_busy (s : State) (c : Call) : (s.record c).busy = s.busy := rfl
@[simp] theorem record_seq (s : State) (c : Call) : (s.record c).seq = s.seq := rfl
@[simp] theorem record_res (s : State) (c : Call) : (s.record c).res = s.res := rfl
@[simp] theorem record_n (s : State) (c : Call) : (s.record c).n = s.n := rfl
@[simp] theorem record_out (s : State) (c : Call) : (s.record c).out = s.out := rfl
@[simp] theorem record_keep (s : State) (c : Call) : (s.record c).keep = s.keep := rfl
@[simp] theorem record_inb (s : State) (c : Call) : (s.record c).inb = s.inb := rfl
@[simp] theorem record_caller (s : State) (c : Call) : (s.record c).caller = s.caller := rfl
@[simp] theorem record_owner (s : State) (c : Call) : (s.record c).owner = s.owner := rfl
@[simp] theorem record_per (s : State) (c : Call) : (s.record c).per = s.per := rfl
@[simp] theorem record_dev (s : State) (c : Call) : (s.record c).dev = s.dev := rfl
@[simp] theorem record_env (s : State) (c : Call) : (s.record c).env = s.env := rfl
@[simp] theorem record_script (s : State) (c : Call) : (s.record c).script = s.script := rfl
@[simp] theorem record_draws (s : State) (c : Call) : (s.record c).draws = s.draws := rfl
@[simp] theorem record_calls (s : State) (c : Call) : (s.record c).calls = s.calls ++ [c] := rfl
@[simp] theorem record_host (s : State) (c : Call) : (s.record c).host = s.host := rfl
@[simp] theorem record_par (s : State) (c : Call) : (s.record c).par = s.par := rfl

/-! present -/

@[simp] theorem present_selCfg (s : State) (f : Snapshot) : (s.present f).selCfg = s.selCfg := rfl
@[simp] theorem present_sel (s : State) (f : Snapshot) : (s.present f).sel = s.sel := rfl
@[simp] theorem present_busy (s : State) (f : Snapshot) : (s.present f).busy = s.busy := rfl
@[simp] theorem present_seq (s : State) (f : Snapshot) : (s.present f).seq = s.seq := rfl
@[simp] theorem present_res (s : State) (f : Snapshot) : (s.present f).res = s.res := rfl
@[simp] theorem present_n (s : State) (f : Snapshot) : (s.present f).n = s.n := rfl
@[simp] theorem present_out (s : State) (f : Snapshot) : (s.present f).out = s.out := rfl
@[simp] theorem present_keep (s : State) (f : Snapshot) : (s.present f).keep = s.keep := rfl
@[simp] theorem present_inb (s : State) (f : Snapshot) : (s.present f).inb = s.inb := rfl
@[simp] theorem present_caller (s : State) (f : Snapshot) : (s.present f).caller = s.caller := rfl
@[simp] theorem present_owner (s : State) (f : Snapshot) : (s.present f).owner = s.owner := rfl
@[simp] theorem present_per (s : State) (f : Snapshot) : (s.present f).per = { s.per with flags := f } := rfl
@[simp] theorem present_dev (s : State) (f : Snapshot) : (s.present f).dev = s.dev := rfl
@[simp] theorem present_env (s : State) (f : Snapshot) : (s.present f).env = s.env := rfl
@[simp] theorem present_script (s : State) (f : Snapshot) : (s.present f).script = s.script := rfl
@[simp] theorem present_draws (s : State) (f : Snapshot) : (s.present f).draws = s.draws := rfl
@[simp] theorem present_calls (s : State) (f : Snapshot) : (s.present f).calls = s.calls ++ [.statusRead f] := rfl
@[simp] theorem present_host (s : State) (f : Snapshot) : (s.present f).host = s.host := rfl
@[simp] theorem present_par (s : State) (f : Snapshot) : (s.present f).par = s.par := rfl

/-! receiveByte -/

@[simp] theorem receiveByte_selCfg (s : State) (v : Byte) : (s.receiveByte v).selCfg = s.selCfg := rfl
@[simp] theorem receiveByte_sel (s : State) (v : Byte) : (s.receiveByte v).sel = s.sel := rfl
@[simp] theorem receiveByte_busy (s : State) (v : Byte) : (s.receiveByte v).busy = s.busy := rfl
@[simp] theorem receiveByte_seq (s : State) (v : Byte) : (s.receiveByte v).seq = s.seq := rfl
@[simp] theorem receiveByte_res (s : State) (v : Byte) : (s.receiveByte v).res = s.res := rfl
@[simp] theorem receiveByte_n (s : State) (v : Byte) : (s.receiveByte v).n = s.n := rfl
@[simp] theorem receiveByte_out (s : State) (v : Byte) : (s.receiveByte v).out = s.out := rfl
@[simp] theorem receiveByte_keep (s : State) (v : Byte) : (s.receiveByte v).keep = s.keep := rfl
@[simp] theorem receiveByte_inb (s : State) (v : Byte) : (s.receiveByte v).inb = s.inb := rfl
@[simp] theorem receiveByte_caller (s : State) (v : Byte) : (s.receiveByte v).caller = s.caller := rfl
@[simp] theorem receiveByte_owner (s : State) (v : Byte) : (s.receiveByte v).owner = s.owner := rfl
@[simp] theorem receiveByte_per (s : State) (v : Byte) : (s.receiveByte v).per = { s.per with rxByte := v } := rfl
@[simp] theorem receiveByte_dev (s : State) (v : Byte) : (s.receiveByte v).dev = s.dev := rfl
@[simp] theorem receiveByte_env (s : State) (v : Byte) : (s.receiveByte v).env = s.env := rfl
@[simp] theorem receiveByte_script (s : State) (v : Byte) : (s.receiveByte v).script = s.script := rfl
@[simp] theorem receiveByte_draws (s : State) (v : Byte) : (s.receiveByte v).draws = s.draws := rfl
@[simp] theorem receiveByte_calls (s : State) (v : Byte) : (s.receiveByte v).calls = s.calls ++ [.dataRead v] := rfl
@[simp] theorem receiveByte_host (s : State) (v : Byte) : (s.receiveByte v).host = s.host := rfl
@[simp] theorem receiveByte_par (s : State) (v : Byte) : (s.receiveByte v).par = s.par := rfl

/-! handOver -/

@[simp] theorem handOver_selCfg (s : State) (b : Byte) : (s.handOver b).selCfg = s.selCfg := rfl
@[simp] theorem handOver_sel (s : State) (b : Byte) : (s.handOver b).sel = s.sel := rfl
@[simp] theorem handOver_busy (s : State) (b : Byte) : (s.handOver b).busy = s.busy := rfl
@[simp] theorem handOver_seq (s : State) (b : Byte) : (s.handOver b).seq = s.seq := rfl
@[simp] theorem handOver_res (s : State) (b : Byte) : (s.handOver b).res = s.res := rfl
@[simp] theorem handOver_n (s : State) (b : Byte) : (s.handOver b).n = s.n := rfl
@[simp] theorem handOver_out (s : State) (b : Byte) : (s.handOver b).out = s.out := rfl
@[simp] theorem handOver_keep (s : State) (b : Byte) : (s.handOver b).keep = s.keep := rfl
@[simp] theorem handOver_inb (s : State) (b : Byte) : (s.handOver b).inb = s.inb := rfl
@[simp] theorem handOver_caller (s : State) (b : Byte) : (s.handOver b).caller = s.caller := rfl
@[simp] theorem handOver_owner (s : State) (b : Byte) : (s.handOver b).owner = s.owner := rfl
@[simp] theorem handOver_per (s : State) (b : Byte) : (s.handOver b).per = { s.per with txByte := b } := rfl
@[simp] theorem handOver_dev (s : State) (b : Byte) : (s.handOver b).dev = s.dev := rfl
@[simp] theorem handOver_env (s : State) (b : Byte) : (s.handOver b).env = s.env := rfl
@[simp] theorem handOver_script (s : State) (b : Byte) : (s.handOver b).script = s.script := rfl
@[simp] theorem handOver_draws (s : State) (b : Byte) : (s.handOver b).draws = s.draws := rfl
@[simp] theorem handOver_calls (s : State) (b : Byte) : (s.handOver b).calls = s.calls ++ [.dataWrite b] := rfl
@[simp] theorem handOver_host (s : State) (b : Byte) : (s.handOver b).host = s.host := rfl
@[simp] theorem handOver_par (s : State) (b : Byte) : (s.handOver b).par = s.par := rfl

/-! followed -/

@[simp] theorem followed_selCfg (s : State) (b : Byte) : (s.followed b).selCfg = s.selCfg := rfl
@[simp] theorem followed_sel (s : State) (b : Byte) : (s.followed b).sel = s.sel := rfl
@[simp] theorem followed_busy (s : State) (b : Byte) : (s.followed b).busy = s.busy := rfl
@[simp] theorem followed_seq (s : State) (b : Byte) : (s.followed b).seq = s.seq := rfl
@[simp] theorem followed_res (s : State) (b : Byte) : (s.followed b).res = s.res := rfl
@[simp] theorem followed_n (s : State) (b : Byte) : (s.followed b).n = s.n := rfl
@[simp] theorem followed_out (s : State) (b : Byte) : (s.followed b).out = s.out := rfl
@[simp] theorem followed_keep (s : State) (b : Byte) : (s.followed b).keep = s.keep := rfl
@[simp] theorem followed_inb (s : State) (b : Byte) : (s.followed b).inb = s.inb := rfl
@[simp] theorem followed_caller (s : State) (b : Byte) : (s.followed b).caller = s.caller := rfl
@[simp] theorem followed_owner (s : State) (b : Byte) : (s.followed b).owner = s.owner := rfl
@[simp] theorem followed_per (s : State) (b : Byte) : (s.followed b).per = s.per := rfl
@[simp] theorem followed_dev (s : State) (b : Byte) : (s.followed b).dev = followFrame s.par s.draws b s.dev := rfl
@[simp] theorem followed_env (s : State) (b : Byte) : (s.followed b).env = s.env := rfl
@[simp] theorem followed_script (s : State) (b : Byte) : (s.followed b).script = s.script := rfl
@[simp] theorem followed_draws (s : State) (b : Byte) : (s.followed b).draws = s.draws + 1 := rfl
@[simp] theorem followed_calls (s : State) (b : Byte) : (s.followed b).calls = s.calls := rfl
@[simp] theorem followed_host (s : State) (b : Byte) : (s.followed b).host = s.host := rfl
@[simp] theorem followed_par (s : State) (b : Byte) : (s.followed b).par = s.par := rfl

/-! replied -/

@[simp] theorem replied_selCfg (s : State) (r : Byte) (d : Device) : (s.replied r d).selCfg = s.selCfg := rfl
@[simp] theorem replied_sel (s : State) (r : Byte) (d : Device) : (s.replied r d).sel = s.sel := rfl
@[simp] theorem replied_busy (s : State) (r : Byte) (d : Device) : (s.replied r d).busy = s.busy := rfl
@[simp] theorem replied_seq (s : State) (r : Byte) (d : Device) : (s.replied r d).seq = s.seq := rfl
@[simp] theorem replied_res (s : State) (r : Byte) (d : Device) : (s.replied r d).res = s.res := rfl
@[simp] theorem replied_n (s : State) (r : Byte) (d : Device) : (s.replied r d).n = s.n := rfl
@[simp] theorem replied_out (s : State) (r : Byte) (d : Device) : (s.replied r d).out = s.out := rfl
@[simp] theorem replied_keep (s : State) (r : Byte) (d : Device) : (s.replied r d).keep = s.keep := rfl
@[simp] theorem replied_inb (s : State) (r : Byte) (d : Device) : (s.replied r d).inb = s.inb := rfl
@[simp] theorem replied_caller (s : State) (r : Byte) (d : Device) : (s.replied r d).caller = s.caller := rfl
@[simp] theorem replied_owner (s : State) (r : Byte) (d : Device) : (s.replied r d).owner = s.owner := rfl
@[simp] theorem replied_per (s : State) (r : Byte) (d : Device) : (s.replied r d).per = s.per.receive r := rfl
@[simp] theorem replied_dev (s : State) (r : Byte) (d : Device) : (s.replied r d).dev = d := rfl
@[simp] theorem replied_env (s : State) (r : Byte) (d : Device) : (s.replied r d).env = s.env := rfl
@[simp] theorem replied_script (s : State) (r : Byte) (d : Device) : (s.replied r d).script = s.script := rfl
@[simp] theorem replied_draws (s : State) (r : Byte) (d : Device) : (s.replied r d).draws = s.draws := rfl
@[simp] theorem replied_calls (s : State) (r : Byte) (d : Device) : (s.replied r d).calls = s.calls := rfl
@[simp] theorem replied_host (s : State) (r : Byte) (d : Device) : (s.replied r d).host = s.host := rfl
@[simp] theorem replied_par (s : State) (r : Byte) (d : Device) : (s.replied r d).par = s.par := rfl

/-! driveAsserted -/

@[simp] theorem driveAsserted_selCfg (s : State) : (driveAsserted s).selCfg = s.selCfg := rfl
@[simp] theorem driveAsserted_sel (s : State) : (driveAsserted s).sel = .asserted := rfl
@[simp] theorem driveAsserted_busy (s : State) : (driveAsserted s).busy = s.busy := rfl
@[simp] theorem driveAsserted_seq (s : State) : (driveAsserted s).seq = s.seq := rfl
@[simp] theorem driveAsserted_res (s : State) : (driveAsserted s).res = s.res := rfl
@[simp] theorem driveAsserted_n (s : State) : (driveAsserted s).n = s.n := rfl
@[simp] theorem driveAsserted_out (s : State) : (driveAsserted s).out = s.out := rfl
@[simp] theorem driveAsserted_keep (s : State) : (driveAsserted s).keep = s.keep := rfl
@[simp] theorem driveAsserted_inb (s : State) : (driveAsserted s).inb = s.inb := rfl
@[simp] theorem driveAsserted_caller (s : State) : (driveAsserted s).caller = s.caller := rfl
@[simp] theorem driveAsserted_owner (s : State) : (driveAsserted s).owner = s.owner := rfl
@[simp] theorem driveAsserted_per (s : State) : (driveAsserted s).per = s.per := rfl
@[simp] theorem driveAsserted_dev (s : State) : (driveAsserted s).dev = { s.dev with phase := assertedPhase s } := rfl
@[simp] theorem driveAsserted_env (s : State) : (driveAsserted s).env = s.env := rfl
@[simp] theorem driveAsserted_script (s : State) : (driveAsserted s).script = s.script := rfl
@[simp] theorem driveAsserted_draws (s : State) : (driveAsserted s).draws = s.draws := rfl
@[simp] theorem driveAsserted_calls (s : State) : (driveAsserted s).calls = s.calls ++ [.selectAssert] := rfl
@[simp] theorem driveAsserted_host (s : State) : (driveAsserted s).host = s.host := rfl
@[simp] theorem driveAsserted_par (s : State) : (driveAsserted s).par = s.par := rfl

/-! driveDeasserted -/

@[simp] theorem driveDeasserted_selCfg (s : State) : (driveDeasserted s).selCfg = s.selCfg := rfl
@[simp] theorem driveDeasserted_sel (s : State) : (driveDeasserted s).sel = .deasserted := rfl
@[simp] theorem driveDeasserted_busy (s : State) : (driveDeasserted s).busy = s.busy := rfl
@[simp] theorem driveDeasserted_seq (s : State) : (driveDeasserted s).seq = s.seq := rfl
@[simp] theorem driveDeasserted_res (s : State) : (driveDeasserted s).res = s.res := rfl
@[simp] theorem driveDeasserted_n (s : State) : (driveDeasserted s).n = s.n := rfl
@[simp] theorem driveDeasserted_out (s : State) : (driveDeasserted s).out = s.out := rfl
@[simp] theorem driveDeasserted_keep (s : State) : (driveDeasserted s).keep = s.keep := rfl
@[simp] theorem driveDeasserted_inb (s : State) : (driveDeasserted s).inb = s.inb := rfl
@[simp] theorem driveDeasserted_caller (s : State) : (driveDeasserted s).caller = s.caller := rfl
@[simp] theorem driveDeasserted_owner (s : State) : (driveDeasserted s).owner = s.owner := rfl
@[simp] theorem driveDeasserted_per (s : State) : (driveDeasserted s).per = s.per := rfl
@[simp] theorem driveDeasserted_dev (s : State) : (driveDeasserted s).dev = { s.dev with phase := .idle } := rfl
@[simp] theorem driveDeasserted_env (s : State) : (driveDeasserted s).env = s.env := rfl
@[simp] theorem driveDeasserted_script (s : State) : (driveDeasserted s).script = s.script := rfl
@[simp] theorem driveDeasserted_draws (s : State) : (driveDeasserted s).draws = s.draws := rfl
@[simp] theorem driveDeasserted_calls (s : State) : (driveDeasserted s).calls = s.calls ++ [.selectDeassert] := rfl
@[simp] theorem driveDeasserted_host (s : State) : (driveDeasserted s).host = s.host := rfl
@[simp] theorem driveDeasserted_par (s : State) : (driveDeasserted s).par = s.par := rfl

/-! configureSelect -/

@[simp] theorem configureSelect_selCfg (s : State) : (configureSelect s).selCfg = true := rfl
@[simp] theorem configureSelect_sel (s : State) : (configureSelect s).sel = .deasserted := rfl
@[simp] theorem configureSelect_busy (s : State) : (configureSelect s).busy = s.busy := rfl
@[simp] theorem configureSelect_seq (s : State) : (configureSelect s).seq = s.seq := rfl
@[simp] theorem configureSelect_res (s : State) : (configureSelect s).res = s.res := rfl
@[simp] theorem configureSelect_n (s : State) : (configureSelect s).n = s.n := rfl
@[simp] theorem configureSelect_out (s : State) : (configureSelect s).out = s.out := rfl
@[simp] theorem configureSelect_keep (s : State) : (configureSelect s).keep = s.keep := rfl
@[simp] theorem configureSelect_inb (s : State) : (configureSelect s).inb = s.inb := rfl
@[simp] theorem configureSelect_caller (s : State) : (configureSelect s).caller = s.caller := rfl
@[simp] theorem configureSelect_owner (s : State) : (configureSelect s).owner = s.owner := rfl
@[simp] theorem configureSelect_per (s : State) : (configureSelect s).per = s.per := rfl
@[simp] theorem configureSelect_dev (s : State) : (configureSelect s).dev = { s.dev with phase := .idle } := rfl
@[simp] theorem configureSelect_env (s : State) : (configureSelect s).env = s.env := rfl
@[simp] theorem configureSelect_script (s : State) : (configureSelect s).script = s.script := rfl
@[simp] theorem configureSelect_draws (s : State) : (configureSelect s).draws = s.draws := rfl
@[simp] theorem configureSelect_calls (s : State) : (configureSelect s).calls = s.calls ++ [.selectDeassert] := rfl
@[simp] theorem configureSelect_host (s : State) : (configureSelect s).host = s.host := rfl
@[simp] theorem configureSelect_par (s : State) : (configureSelect s).par = s.par := rfl

/-! latchTransaction -/

@[simp] theorem latchTransaction_selCfg (c : Caller) (bytes : List Byte) (mask : List Bool) (s : State) : (latchTransaction c bytes mask s).selCfg = s.selCfg := rfl
@[simp] theorem latchTransaction_sel (c : Caller) (bytes : List Byte) (mask : List Bool) (s : State) : (latchTransaction c bytes mask s).sel = s.sel := rfl
@[simp] theorem latchTransaction_busy (c : Caller) (bytes : List Byte) (mask : List Bool) (s : State) : (latchTransaction c bytes mask s).busy = true := rfl
@[simp] theorem latchTransaction_seq (c : Caller) (bytes : List Byte) (mask : List Bool) (s : State) : (latchTransaction c bytes mask s).seq = s.seq := rfl
@[simp] theorem latchTransaction_res (c : Caller) (bytes : List Byte) (mask : List Bool) (s : State) : (latchTransaction c bytes mask s).res = none := rfl
@[simp] theorem latchTransaction_n (c : Caller) (bytes : List Byte) (mask : List Bool) (s : State) : (latchTransaction c bytes mask s).n = bytes.length := rfl
@[simp] theorem latchTransaction_out (c : Caller) (bytes : List Byte) (mask : List Bool) (s : State) : (latchTransaction c bytes mask s).out = bytes := rfl
@[simp] theorem latchTransaction_keep (c : Caller) (bytes : List Byte) (mask : List Bool) (s : State) : (latchTransaction c bytes mask s).keep = mask := rfl
@[simp] theorem latchTransaction_inb (c : Caller) (bytes : List Byte) (mask : List Bool) (s : State) : (latchTransaction c bytes mask s).inb = [] := rfl
@[simp] theorem latchTransaction_caller (c : Caller) (bytes : List Byte) (mask : List Bool) (s : State) : (latchTransaction c bytes mask s).caller = c := rfl
@[simp] theorem latchTransaction_owner (c : Caller) (bytes : List Byte) (mask : List Bool) (s : State) : (latchTransaction c bytes mask s).owner = s.host.context := rfl
@[simp] theorem latchTransaction_per (c : Caller) (bytes : List Byte) (mask : List Bool) (s : State) : (latchTransaction c bytes mask s).per = s.per := rfl
@[simp] theorem latchTransaction_dev (c : Caller) (bytes : List Byte) (mask : List Bool) (s : State) : (latchTransaction c bytes mask s).dev = s.dev := rfl
@[simp] theorem latchTransaction_env (c : Caller) (bytes : List Byte) (mask : List Bool) (s : State) : (latchTransaction c bytes mask s).env = s.env := rfl
@[simp] theorem latchTransaction_script (c : Caller) (bytes : List Byte) (mask : List Bool) (s : State) : (latchTransaction c bytes mask s).script = s.script := rfl
@[simp] theorem latchTransaction_draws (c : Caller) (bytes : List Byte) (mask : List Bool) (s : State) : (latchTransaction c bytes mask s).draws = s.draws := rfl
@[simp] theorem latchTransaction_calls (c : Caller) (bytes : List Byte) (mask : List Bool) (s : State) : (latchTransaction c bytes mask s).calls = s.calls := rfl
@[simp] theorem latchTransaction_host (c : Caller) (bytes : List Byte) (mask : List Bool) (s : State) : (latchTransaction c bytes mask s).host = s.host := rfl
@[simp] theorem latchTransaction_par (c : Caller) (bytes : List Byte) (mask : List Bool) (s : State) : (latchTransaction c bytes mask s).par = s.par := rfl

/-! goto -/

@[simp] theorem goto_selCfg (s : State) (q : Seq) : (s.goto q).selCfg = s.selCfg := rfl
@[simp] theorem goto_sel (s : State) (q : Seq) : (s.goto q).sel = s.sel := rfl
@[simp] theorem goto_busy (s : State) (q : Seq) : (s.goto q).busy = s.busy := rfl
@[simp] theorem goto_seq (s : State) (q : Seq) : (s.goto q).seq = q := rfl
@[simp] theorem goto_res (s : State) (q : Seq) : (s.goto q).res = s.res := rfl
@[simp] theorem goto_n (s : State) (q : Seq) : (s.goto q).n = s.n := rfl
@[simp] theorem goto_out (s : State) (q : Seq) : (s.goto q).out = s.out := rfl
@[simp] theorem goto_keep (s : State) (q : Seq) : (s.goto q).keep = s.keep := rfl
@[simp] theorem goto_inb (s : State) (q : Seq) : (s.goto q).inb = s.inb := rfl
@[simp] theorem goto_caller (s : State) (q : Seq) : (s.goto q).caller = s.caller := rfl
@[simp] theorem goto_owner (s : State) (q : Seq) : (s.goto q).owner = s.owner := rfl
@[simp] theorem goto_per (s : State) (q : Seq) : (s.goto q).per = s.per := rfl
@[simp] theorem goto_dev (s : State) (q : Seq) : (s.goto q).dev = s.dev := rfl
@[simp] theorem goto_env (s : State) (q : Seq) : (s.goto q).env = s.env := rfl
@[simp] theorem goto_script (s : State) (q : Seq) : (s.goto q).script = s.script := rfl
@[simp] theorem goto_draws (s : State) (q : Seq) : (s.goto q).draws = s.draws := rfl
@[simp] theorem goto_calls (s : State) (q : Seq) : (s.goto q).calls = s.calls := rfl
@[simp] theorem goto_host (s : State) (q : Seq) : (s.goto q).host = s.host := rfl
@[simp] theorem goto_par (s : State) (q : Seq) : (s.goto q).par = s.par := rfl

/-! release -/

@[simp] theorem release_selCfg (s : State) : (s.release).selCfg = s.selCfg := rfl
@[simp] theorem release_sel (s : State) : (s.release).sel = s.sel := rfl
@[simp] theorem release_busy (s : State) : (s.release).busy = false := rfl
@[simp] theorem release_seq (s : State) : (s.release).seq = .idle := rfl
@[simp] theorem release_res (s : State) : (s.release).res = s.res := rfl
@[simp] theorem release_n (s : State) : (s.release).n = s.n := rfl
@[simp] theorem release_out (s : State) : (s.release).out = s.out := rfl
@[simp] theorem release_keep (s : State) : (s.release).keep = s.keep := rfl
@[simp] theorem release_inb (s : State) : (s.release).inb = s.inb := rfl
@[simp] theorem release_caller (s : State) : (s.release).caller = s.caller := rfl
@[simp] theorem release_owner (s : State) : (s.release).owner = s.owner := rfl
@[simp] theorem release_per (s : State) : (s.release).per = s.per := rfl
@[simp] theorem release_dev (s : State) : (s.release).dev = s.dev := rfl
@[simp] theorem release_env (s : State) : (s.release).env = s.env := rfl
@[simp] theorem release_script (s : State) : (s.release).script = s.script := rfl
@[simp] theorem release_draws (s : State) : (s.release).draws = s.draws := rfl
@[simp] theorem release_calls (s : State) : (s.release).calls = s.calls := rfl
@[simp] theorem release_host (s : State) : (s.release).host = s.host := rfl
@[simp] theorem release_par (s : State) : (s.release).par = s.par := rfl

/-! abortTransaction -/

@[simp] theorem abortTransaction_selCfg (k : FaultKind) (i : Nat) (s : State) : (abortTransaction k i s).selCfg = s.selCfg := rfl
@[simp] theorem abortTransaction_sel (k : FaultKind) (i : Nat) (s : State) : (abortTransaction k i s).sel = s.sel := rfl
@[simp] theorem abortTransaction_busy (k : FaultKind) (i : Nat) (s : State) : (abortTransaction k i s).busy = s.busy := rfl
@[simp] theorem abortTransaction_seq (k : FaultKind) (i : Nat) (s : State) : (abortTransaction k i s).seq = .close i := rfl
@[simp] theorem abortTransaction_res (k : FaultKind) (i : Nat) (s : State) : (abortTransaction k i s).res = some k := rfl
@[simp] theorem abortTransaction_n (k : FaultKind) (i : Nat) (s : State) : (abortTransaction k i s).n = s.n := rfl
@[simp] theorem abortTransaction_out (k : FaultKind) (i : Nat) (s : State) : (abortTransaction k i s).out = s.out := rfl
@[simp] theorem abortTransaction_keep (k : FaultKind) (i : Nat) (s : State) : (abortTransaction k i s).keep = s.keep := rfl
@[simp] theorem abortTransaction_inb (k : FaultKind) (i : Nat) (s : State) : (abortTransaction k i s).inb = s.inb := rfl
@[simp] theorem abortTransaction_caller (k : FaultKind) (i : Nat) (s : State) : (abortTransaction k i s).caller = s.caller := rfl
@[simp] theorem abortTransaction_owner (k : FaultKind) (i : Nat) (s : State) : (abortTransaction k i s).owner = s.owner := rfl
@[simp] theorem abortTransaction_per (k : FaultKind) (i : Nat) (s : State) : (abortTransaction k i s).per = s.per := rfl
@[simp] theorem abortTransaction_dev (k : FaultKind) (i : Nat) (s : State) : (abortTransaction k i s).dev = s.dev := rfl
@[simp] theorem abortTransaction_env (k : FaultKind) (i : Nat) (s : State) : (abortTransaction k i s).env = s.env := rfl
@[simp] theorem abortTransaction_script (k : FaultKind) (i : Nat) (s : State) : (abortTransaction k i s).script = s.script := rfl
@[simp] theorem abortTransaction_draws (k : FaultKind) (i : Nat) (s : State) : (abortTransaction k i s).draws = s.draws := rfl
@[simp] theorem abortTransaction_calls (k : FaultKind) (i : Nat) (s : State) : (abortTransaction k i s).calls = s.calls := rfl
@[simp] theorem abortTransaction_host (k : FaultKind) (i : Nat) (s : State) : (abortTransaction k i s).host = s.host := rfl
@[simp] theorem abortTransaction_par (k : FaultKind) (i : Nat) (s : State) : (abortTransaction k i s).par = s.par := rfl

/-! collect -/

@[simp] theorem collect_selCfg (kept : Bool) (v : Byte) (i : Nat) (s : State) : (collect kept v i s).selCfg = s.selCfg := rfl
@[simp] theorem collect_sel (kept : Bool) (v : Byte) (i : Nat) (s : State) : (collect kept v i s).sel = s.sel := rfl
@[simp] theorem collect_busy (kept : Bool) (v : Byte) (i : Nat) (s : State) : (collect kept v i s).busy = s.busy := rfl
@[simp] theorem collect_seq (kept : Bool) (v : Byte) (i : Nat) (s : State) : (collect kept v i s).seq = if i + 1 < s.n then .send (i + 1) else .close s.n := rfl
@[simp] theorem collect_res (kept : Bool) (v : Byte) (i : Nat) (s : State) : (collect kept v i s).res = s.res := rfl
@[simp] theorem collect_n (kept : Bool) (v : Byte) (i : Nat) (s : State) : (collect kept v i s).n = s.n := rfl
@[simp] theorem collect_out (kept : Bool) (v : Byte) (i : Nat) (s : State) : (collect kept v i s).out = s.out := rfl
@[simp] theorem collect_keep (kept : Bool) (v : Byte) (i : Nat) (s : State) : (collect kept v i s).keep = s.keep := rfl
@[simp] theorem collect_inb (kept : Bool) (v : Byte) (i : Nat) (s : State) : (collect kept v i s).inb = if kept then s.inb ++ [v] else s.inb := rfl
@[simp] theorem collect_caller (kept : Bool) (v : Byte) (i : Nat) (s : State) : (collect kept v i s).caller = s.caller := rfl
@[simp] theorem collect_owner (kept : Bool) (v : Byte) (i : Nat) (s : State) : (collect kept v i s).owner = s.owner := rfl
@[simp] theorem collect_per (kept : Bool) (v : Byte) (i : Nat) (s : State) : (collect kept v i s).per = s.per := rfl
@[simp] theorem collect_dev (kept : Bool) (v : Byte) (i : Nat) (s : State) : (collect kept v i s).dev = s.dev := rfl
@[simp] theorem collect_env (kept : Bool) (v : Byte) (i : Nat) (s : State) : (collect kept v i s).env = s.env := rfl
@[simp] theorem collect_script (kept : Bool) (v : Byte) (i : Nat) (s : State) : (collect kept v i s).script = s.script := rfl
@[simp] theorem collect_draws (kept : Bool) (v : Byte) (i : Nat) (s : State) : (collect kept v i s).draws = s.draws := rfl
@[simp] theorem collect_calls (kept : Bool) (v : Byte) (i : Nat) (s : State) : (collect kept v i s).calls = s.calls := rfl
@[simp] theorem collect_host (kept : Bool) (v : Byte) (i : Nat) (s : State) : (collect kept v i s).host = s.host := rfl
@[simp] theorem collect_par (kept : Bool) (v : Byte) (i : Nat) (s : State) : (collect kept v i s).par = s.par := rfl

/-! enterHandler -/

@[simp] theorem enterHandler_selCfg (s : State) : (enterHandler s).selCfg = s.selCfg := rfl
@[simp] theorem enterHandler_sel (s : State) : (enterHandler s).sel = s.sel := rfl
@[simp] theorem enterHandler_busy (s : State) : (enterHandler s).busy = s.busy := rfl
@[simp] theorem enterHandler_seq (s : State) : (enterHandler s).seq = s.seq := rfl
@[simp] theorem enterHandler_res (s : State) : (enterHandler s).res = s.res := rfl
@[simp] theorem enterHandler_n (s : State) : (enterHandler s).n = s.n := rfl
@[simp] theorem enterHandler_out (s : State) : (enterHandler s).out = s.out := rfl
@[simp] theorem enterHandler_keep (s : State) : (enterHandler s).keep = s.keep := rfl
@[simp] theorem enterHandler_inb (s : State) : (enterHandler s).inb = s.inb := rfl
@[simp] theorem enterHandler_caller (s : State) : (enterHandler s).caller = s.caller := rfl
@[simp] theorem enterHandler_owner (s : State) : (enterHandler s).owner = s.owner := rfl
@[simp] theorem enterHandler_per (s : State) : (enterHandler s).per = s.per := rfl
@[simp] theorem enterHandler_dev (s : State) : (enterHandler s).dev = s.dev := rfl
@[simp] theorem enterHandler_env (s : State) : (enterHandler s).env = s.env := rfl
@[simp] theorem enterHandler_script (s : State) : (enterHandler s).script = s.script := rfl
@[simp] theorem enterHandler_draws (s : State) : (enterHandler s).draws = s.draws := rfl
@[simp] theorem enterHandler_calls (s : State) : (enterHandler s).calls = s.calls := rfl
@[simp] theorem enterHandler_host (s : State) : (enterHandler s).host = { s.host with context := .handler, irq := false, handler := { s.host.handler with todo := s.host.isr } } := rfl
@[simp] theorem enterHandler_par (s : State) : (enterHandler s).par = s.par := rfl

/-! leaveHandler -/

@[simp] theorem leaveHandler_selCfg (s : State) : (leaveHandler s).selCfg = s.selCfg := rfl
@[simp] theorem leaveHandler_sel (s : State) : (leaveHandler s).sel = s.sel := rfl
@[simp] theorem leaveHandler_busy (s : State) : (leaveHandler s).busy = s.busy := rfl
@[simp] theorem leaveHandler_seq (s : State) : (leaveHandler s).seq = s.seq := rfl
@[simp] theorem leaveHandler_res (s : State) : (leaveHandler s).res = s.res := rfl
@[simp] theorem leaveHandler_n (s : State) : (leaveHandler s).n = s.n := rfl
@[simp] theorem leaveHandler_out (s : State) : (leaveHandler s).out = s.out := rfl
@[simp] theorem leaveHandler_keep (s : State) : (leaveHandler s).keep = s.keep := rfl
@[simp] theorem leaveHandler_inb (s : State) : (leaveHandler s).inb = s.inb := rfl
@[simp] theorem leaveHandler_caller (s : State) : (leaveHandler s).caller = s.caller := rfl
@[simp] theorem leaveHandler_owner (s : State) : (leaveHandler s).owner = s.owner := rfl
@[simp] theorem leaveHandler_per (s : State) : (leaveHandler s).per = s.per := rfl
@[simp] theorem leaveHandler_dev (s : State) : (leaveHandler s).dev = s.dev := rfl
@[simp] theorem leaveHandler_env (s : State) : (leaveHandler s).env = s.env := rfl
@[simp] theorem leaveHandler_script (s : State) : (leaveHandler s).script = s.script := rfl
@[simp] theorem leaveHandler_draws (s : State) : (leaveHandler s).draws = s.draws := rfl
@[simp] theorem leaveHandler_calls (s : State) : (leaveHandler s).calls = s.calls := rfl
@[simp] theorem leaveHandler_host (s : State) : (leaveHandler s).host = { s.host with context := .ordinary } := rfl
@[simp] theorem leaveHandler_par (s : State) : (leaveHandler s).par = s.par := rfl

/-! setThread: only the host changes -/

@[simp] theorem setThread_selCfg (s : State) (c : Context) (t : Thread) : (s.setThread c t).selCfg = s.selCfg := by cases c <;> rfl
@[simp] theorem setThread_sel (s : State) (c : Context) (t : Thread) : (s.setThread c t).sel = s.sel := by cases c <;> rfl
@[simp] theorem setThread_busy (s : State) (c : Context) (t : Thread) : (s.setThread c t).busy = s.busy := by cases c <;> rfl
@[simp] theorem setThread_seq (s : State) (c : Context) (t : Thread) : (s.setThread c t).seq = s.seq := by cases c <;> rfl
@[simp] theorem setThread_res (s : State) (c : Context) (t : Thread) : (s.setThread c t).res = s.res := by cases c <;> rfl
@[simp] theorem setThread_n (s : State) (c : Context) (t : Thread) : (s.setThread c t).n = s.n := by cases c <;> rfl
@[simp] theorem setThread_out (s : State) (c : Context) (t : Thread) : (s.setThread c t).out = s.out := by cases c <;> rfl
@[simp] theorem setThread_keep (s : State) (c : Context) (t : Thread) : (s.setThread c t).keep = s.keep := by cases c <;> rfl
@[simp] theorem setThread_inb (s : State) (c : Context) (t : Thread) : (s.setThread c t).inb = s.inb := by cases c <;> rfl
@[simp] theorem setThread_caller (s : State) (c : Context) (t : Thread) : (s.setThread c t).caller = s.caller := by cases c <;> rfl
@[simp] theorem setThread_owner (s : State) (c : Context) (t : Thread) : (s.setThread c t).owner = s.owner := by cases c <;> rfl
@[simp] theorem setThread_per (s : State) (c : Context) (t : Thread) : (s.setThread c t).per = s.per := by cases c <;> rfl
@[simp] theorem setThread_dev (s : State) (c : Context) (t : Thread) : (s.setThread c t).dev = s.dev := by cases c <;> rfl
@[simp] theorem setThread_env (s : State) (c : Context) (t : Thread) : (s.setThread c t).env = s.env := by cases c <;> rfl
@[simp] theorem setThread_script (s : State) (c : Context) (t : Thread) : (s.setThread c t).script = s.script := by cases c <;> rfl
@[simp] theorem setThread_draws (s : State) (c : Context) (t : Thread) : (s.setThread c t).draws = s.draws := by cases c <;> rfl
@[simp] theorem setThread_calls (s : State) (c : Context) (t : Thread) : (s.setThread c t).calls = s.calls := by cases c <;> rfl
@[simp] theorem setThread_par (s : State) (c : Context) (t : Thread) : (s.setThread c t).par = s.par := by cases c <;> rfl
@[simp] theorem setThread_host_ctl (s : State) (c : Context) (t : Thread) : (s.setThread c t).host.ctl = s.host.ctl := by cases c <;> rfl
@[simp] theorem setThread_host_context (s : State) (c : Context) (t : Thread) : (s.setThread c t).host.context = s.host.context := by cases c <;> rfl
@[simp] theorem setThread_host_isr (s : State) (c : Context) (t : Thread) : (s.setThread c t).host.isr = s.host.isr := by cases c <;> rfl
@[simp] theorem setThread_host_irq (s : State) (c : Context) (t : Thread) : (s.setThread c t).host.irq = s.host.irq := by cases c <;> rfl
@[simp] theorem setThread_host_irqOn (s : State) (c : Context) (t : Thread) : (s.setThread c t).host.irqOn = s.host.irqOn := by cases c <;> rfl

/-! deliver: only the host changes -/

@[simp] theorem deliver_selCfg (s : State) (c : Context) (r : Result) : (s.deliver c r).selCfg = s.selCfg := by cases c <;> rfl
@[simp] theorem deliver_sel (s : State) (c : Context) (r : Result) : (s.deliver c r).sel = s.sel := by cases c <;> rfl
@[simp] theorem deliver_busy (s : State) (c : Context) (r : Result) : (s.deliver c r).busy = s.busy := by cases c <;> rfl
@[simp] theorem deliver_seq (s : State) (c : Context) (r : Result) : (s.deliver c r).seq = s.seq := by cases c <;> rfl
@[simp] theorem deliver_res (s : State) (c : Context) (r : Result) : (s.deliver c r).res = s.res := by cases c <;> rfl
@[simp] theorem deliver_n (s : State) (c : Context) (r : Result) : (s.deliver c r).n = s.n := by cases c <;> rfl
@[simp] theorem deliver_out (s : State) (c : Context) (r : Result) : (s.deliver c r).out = s.out := by cases c <;> rfl
@[simp] theorem deliver_keep (s : State) (c : Context) (r : Result) : (s.deliver c r).keep = s.keep := by cases c <;> rfl
@[simp] theorem deliver_inb (s : State) (c : Context) (r : Result) : (s.deliver c r).inb = s.inb := by cases c <;> rfl
@[simp] theorem deliver_caller (s : State) (c : Context) (r : Result) : (s.deliver c r).caller = s.caller := by cases c <;> rfl
@[simp] theorem deliver_owner (s : State) (c : Context) (r : Result) : (s.deliver c r).owner = s.owner := by cases c <;> rfl
@[simp] theorem deliver_per (s : State) (c : Context) (r : Result) : (s.deliver c r).per = s.per := by cases c <;> rfl
@[simp] theorem deliver_dev (s : State) (c : Context) (r : Result) : (s.deliver c r).dev = s.dev := by cases c <;> rfl
@[simp] theorem deliver_env (s : State) (c : Context) (r : Result) : (s.deliver c r).env = s.env := by cases c <;> rfl
@[simp] theorem deliver_script (s : State) (c : Context) (r : Result) : (s.deliver c r).script = s.script := by cases c <;> rfl
@[simp] theorem deliver_draws (s : State) (c : Context) (r : Result) : (s.deliver c r).draws = s.draws := by cases c <;> rfl
@[simp] theorem deliver_calls (s : State) (c : Context) (r : Result) : (s.deliver c r).calls = s.calls := by cases c <;> rfl
@[simp] theorem deliver_par (s : State) (c : Context) (r : Result) : (s.deliver c r).par = s.par := by cases c <;> rfl
@[simp] theorem deliver_host_ctl (s : State) (c : Context) (r : Result) : (s.deliver c r).host.ctl = s.host.ctl := by cases c <;> rfl
@[simp] theorem deliver_host_context (s : State) (c : Context) (r : Result) : (s.deliver c r).host.context = s.host.context := by cases c <;> rfl
@[simp] theorem deliver_host_isr (s : State) (c : Context) (r : Result) : (s.deliver c r).host.isr = s.host.isr := by cases c <;> rfl
@[simp] theorem deliver_host_irq (s : State) (c : Context) (r : Result) : (s.deliver c r).host.irq = s.host.irq := by cases c <;> rfl
@[simp] theorem deliver_host_irqOn (s : State) (c : Context) (r : Result) : (s.deliver c r).host.irqOn = s.host.irqOn := by cases c <;> rfl

/-! setCall: only the host changes -/

@[simp] theorem setCall_selCfg (s : State) (c : Option CallStage) : (s.setCall c).selCfg = s.selCfg := by unfold State.setCall; simp
@[simp] theorem setCall_sel (s : State) (c : Option CallStage) : (s.setCall c).sel = s.sel := by unfold State.setCall; simp
@[simp] theorem setCall_busy (s : State) (c : Option CallStage) : (s.setCall c).busy = s.busy := by unfold State.setCall; simp
@[simp] theorem setCall_seq (s : State) (c : Option CallStage) : (s.setCall c).seq = s.seq := by unfold State.setCall; simp
@[simp] theorem setCall_res (s : State) (c : Option CallStage) : (s.setCall c).res = s.res := by unfold State.setCall; simp
@[simp] theorem setCall_n (s : State) (c : Option CallStage) : (s.setCall c).n = s.n := by unfold State.setCall; simp
@[simp] theorem setCall_out (s : State) (c : Option CallStage) : (s.setCall c).out = s.out := by unfold State.setCall; simp
@[simp] theorem setCall_keep (s : State) (c : Option CallStage) : (s.setCall c).keep = s.keep := by unfold State.setCall; simp
@[simp] theorem setCall_inb (s : State) (c : Option CallStage) : (s.setCall c).inb = s.inb := by unfold State.setCall; simp
@[simp] theorem setCall_caller (s : State) (c : Option CallStage) : (s.setCall c).caller = s.caller := by unfold State.setCall; simp
@[simp] theorem setCall_owner (s : State) (c : Option CallStage) : (s.setCall c).owner = s.owner := by unfold State.setCall; simp
@[simp] theorem setCall_per (s : State) (c : Option CallStage) : (s.setCall c).per = s.per := by unfold State.setCall; simp
@[simp] theorem setCall_dev (s : State) (c : Option CallStage) : (s.setCall c).dev = s.dev := by unfold State.setCall; simp
@[simp] theorem setCall_env (s : State) (c : Option CallStage) : (s.setCall c).env = s.env := by unfold State.setCall; simp
@[simp] theorem setCall_script (s : State) (c : Option CallStage) : (s.setCall c).script = s.script := by unfold State.setCall; simp
@[simp] theorem setCall_draws (s : State) (c : Option CallStage) : (s.setCall c).draws = s.draws := by unfold State.setCall; simp
@[simp] theorem setCall_calls (s : State) (c : Option CallStage) : (s.setCall c).calls = s.calls := by unfold State.setCall; simp
@[simp] theorem setCall_par (s : State) (c : Option CallStage) : (s.setCall c).par = s.par := by unfold State.setCall; simp
@[simp] theorem setCall_host_ctl (s : State) (c : Option CallStage) : (s.setCall c).host.ctl = s.host.ctl := by unfold State.setCall; simp
@[simp] theorem setCall_host_context (s : State) (c : Option CallStage) : (s.setCall c).host.context = s.host.context := by unfold State.setCall; simp
@[simp] theorem setCall_host_isr (s : State) (c : Option CallStage) : (s.setCall c).host.isr = s.host.isr := by unfold State.setCall; simp
@[simp] theorem setCall_host_irq (s : State) (c : Option CallStage) : (s.setCall c).host.irq = s.host.irq := by unfold State.setCall; simp
@[simp] theorem setCall_host_irqOn (s : State) (c : Option CallStage) : (s.setCall c).host.irqOn = s.host.irqOn := by unfold State.setCall; simp

/-! popped: only the host changes -/

@[simp] theorem popped_selCfg (s : State) (rest : List Request) : (s.popped rest).selCfg = s.selCfg := by unfold State.popped; simp
@[simp] theorem popped_sel (s : State) (rest : List Request) : (s.popped rest).sel = s.sel := by unfold State.popped; simp
@[simp] theorem popped_busy (s : State) (rest : List Request) : (s.popped rest).busy = s.busy := by unfold State.popped; simp
@[simp] theorem popped_seq (s : State) (rest : List Request) : (s.popped rest).seq = s.seq := by unfold State.popped; simp
@[simp] theorem popped_res (s : State) (rest : List Request) : (s.popped rest).res = s.res := by unfold State.popped; simp
@[simp] theorem popped_n (s : State) (rest : List Request) : (s.popped rest).n = s.n := by unfold State.popped; simp
@[simp] theorem popped_out (s : State) (rest : List Request) : (s.popped rest).out = s.out := by unfold State.popped; simp
@[simp] theorem popped_keep (s : State) (rest : List Request) : (s.popped rest).keep = s.keep := by unfold State.popped; simp
@[simp] theorem popped_inb (s : State) (rest : List Request) : (s.popped rest).inb = s.inb := by unfold State.popped; simp
@[simp] theorem popped_caller (s : State) (rest : List Request) : (s.popped rest).caller = s.caller := by unfold State.popped; simp
@[simp] theorem popped_owner (s : State) (rest : List Request) : (s.popped rest).owner = s.owner := by unfold State.popped; simp
@[simp] theorem popped_per (s : State) (rest : List Request) : (s.popped rest).per = s.per := by unfold State.popped; simp
@[simp] theorem popped_dev (s : State) (rest : List Request) : (s.popped rest).dev = s.dev := by unfold State.popped; simp
@[simp] theorem popped_env (s : State) (rest : List Request) : (s.popped rest).env = s.env := by unfold State.popped; simp
@[simp] theorem popped_script (s : State) (rest : List Request) : (s.popped rest).script = s.script := by unfold State.popped; simp
@[simp] theorem popped_draws (s : State) (rest : List Request) : (s.popped rest).draws = s.draws := by unfold State.popped; simp
@[simp] theorem popped_calls (s : State) (rest : List Request) : (s.popped rest).calls = s.calls := by unfold State.popped; simp
@[simp] theorem popped_par (s : State) (rest : List Request) : (s.popped rest).par = s.par := by unfold State.popped; simp
@[simp] theorem popped_host_ctl (s : State) (rest : List Request) : (s.popped rest).host.ctl = s.host.ctl := by unfold State.popped; simp
@[simp] theorem popped_host_context (s : State) (rest : List Request) : (s.popped rest).host.context = s.host.context := by unfold State.popped; simp
@[simp] theorem popped_host_isr (s : State) (rest : List Request) : (s.popped rest).host.isr = s.host.isr := by unfold State.popped; simp
@[simp] theorem popped_host_irq (s : State) (rest : List Request) : (s.popped rest).host.irq = s.host.irq := by unfold State.popped; simp
@[simp] theorem popped_host_irqOn (s : State) (rest : List Request) : (s.popped rest).host.irqOn = s.host.irqOn := by unfold State.popped; simp

/-! Reading one context's record back -/

@[simp] theorem setThread_thread (s : State) (c : Context) (t : Thread) : (s.setThread c t).thread c = t := by
  cases c <;> rfl
@[simp] theorem setThread_thread_other (s : State) (c d : Context) (t : Thread) (h : c ≠ d) :
    (s.setThread c t).thread d = s.thread d := by
  cases c <;> cases d <;> first | rfl | exact absurd rfl h
@[simp] theorem deliver_thread (s : State) (c : Context) (r : Result) :
    (s.deliver c r).thread c = { s.thread c with result := some r } := by cases c <;> rfl
@[simp] theorem popped_thread (s : State) (rest : List Request) :
    (s.popped rest).thread s.host.context = { s.thread s.host.context with todo := rest } := by
  unfold State.popped; simp
@[simp] theorem setCall_thread (s : State) (c : Option CallStage) :
    (s.setCall c).thread s.host.context = { s.thread s.host.context with call := c } := by
  unfold State.setCall; simp

end Sys2Proof.Machine
end

