-- ==== Sys2Proof/Laws/Memory.lean ====
section
/-! SUPPORT. The device registers: every operation keeps the canonical form, a read after a write gives the byte written, a
write leaves every other location alone. -/

namespace Sys2Proof.Machine

theorem Memory.wf_cons {c : Host.Cell} {m : Memory} :
    Memory.wf (c :: m) = true ↔ c.1 ≤ Config.lastAddr ∧ (∀ d ∈ m, c.1 < d.1) ∧ Memory.wf m = true := by
  induction m generalizing c with
  | nil => simp [Memory.wf]
  | cons d rest ih =>
    have hd := @ih d
    simp only [Memory.wf, Bool.and_eq_true, decide_eq_true_eq, List.mem_cons, forall_eq_or_imp]
    constructor
    · rintro ⟨hcd, hw⟩
      obtain ⟨hle, hall, hr⟩ := hd.1 hw
      exact ⟨by omega, ⟨hcd, fun e he => by have := hall e he; omega⟩, hw⟩
    · rintro ⟨-, ⟨hcd, -⟩, hw⟩
      exact ⟨hcd, hw⟩

theorem Memory.mem_write {m : Memory} {a : Nat} {v : Byte} {c : Host.Cell} (h : c ∈ m.write a v) :
    c = (a, v) ∨ c ∈ m := by
  induction m with
  | nil => simpa [Memory.write] using h
  | cons d rest ih =>
    simp only [Memory.write] at h
    split at h
    · simpa using h
    · split at h
      · rcases List.mem_cons.1 h with h | h
        · exact .inl h
        · exact .inr (List.mem_cons_of_mem _ h)
      · rcases List.mem_cons.1 h with h | h
        · exact .inr (by simp [h])
        · rcases ih h with h | h
          · exact .inl h
          · exact .inr (List.mem_cons_of_mem _ h)

/-- A write keeps the canonical form. -/
theorem Memory.write_wf {m : Memory} {a : Nat} (v : Byte) (ha : a ≤ Config.lastAddr) (h : m.wf = true) :
    (m.write a v).wf = true := by
  induction m with
  | nil => simpa [Memory.write, Memory.wf] using ha
  | cons c rest ih =>
    obtain ⟨hc, hall, hr⟩ := Memory.wf_cons.1 h
    simp only [Memory.write]
    split
    · rename_i hlt
      refine Memory.wf_cons.2 ⟨ha, ?_, h⟩
      intro d hd
      rcases List.mem_cons.1 hd with rfl | hd
      · exact hlt
      · exact lt_trans hlt (hall d hd)
    · split
      · rename_i heq
        exact Memory.wf_cons.2 ⟨ha, fun d hd => by have := hall d hd; omega, hr⟩
      · rename_i hlt hne
        refine Memory.wf_cons.2 ⟨hc, ?_, ih hr⟩
        intro d hd
        rcases Memory.mem_write hd with rfl | hd
        · simp only; omega
        · exact hall d hd

theorem Memory.read_eq_none {m : Memory} {a : Nat} (h : ∀ d ∈ m, a < d.1) : m.read a = none := by
  induction m with
  | nil => rfl
  | cons c rest ih =>
    have hc := h c (by simp)
    simp only [Memory.read]
    rw [if_neg (by omega)]
    exact ih fun d hd => h d (List.mem_cons_of_mem _ hd)

/-- Reading what was written. -/
@[simp] theorem Memory.read_write_same (m : Memory) (a : Nat) (v : Byte) : (m.write a v).read a = some v := by
  induction m with
  | nil => simp [Memory.write, Memory.read]
  | cons c rest ih =>
    simp only [Memory.write]
    split
    · simp [Memory.read]
    · split
      · simp [Memory.read]
      · rename_i hne
        simp [Memory.read, Ne.symm hne, ih]

/-- A write leaves every other location alone. -/
theorem Memory.read_write_other (m : Memory) {a b : Nat} (v : Byte) (h : b ≠ a) :
    (m.write a v).read b = m.read b := by
  induction m with
  | nil => simp [Memory.write, Memory.read, Ne.symm h]
  | cons c rest ih =>
    simp only [Memory.write]
    split
    · simp [Memory.read, Ne.symm h]
    · split
      · rename_i heq
        subst heq
        simp [Memory.read, Ne.symm h]
      · simp only [Memory.read, ih]

@[simp] theorem regRead_regWrite_same (d : Device) (a : RegAddr) (v : Byte) : regRead (regWrite d a v) a = v := by
  simp [regRead, regWrite]

theorem regRead_regWrite_other (d : Device) {a b : RegAddr} (v : Byte) (h : b ≠ a) :
    regRead (regWrite d a v) b = regRead d b := by
  have : b.toNat ≠ a.toNat := fun e => h (BitVec.eq_of_toNat_eq e)
  simp [regRead, regWrite, Memory.read_write_other _ _ this]

theorem regAddr_le_last (a : RegAddr) : a.toNat ≤ Config.lastAddr := by
  have := a.isLt
  simp only [Config.lastAddr]
  omega

theorem regWrite_wf {d : Device} (a : RegAddr) (v : Byte) (h : d.regs.wf = true) : (regWrite d a v).regs.wf = true :=
  Memory.write_wf v (regAddr_le_last a) h

/-- Two devices with the same stored locations read alike. -/
theorem regRead_congr {d e : Device} (h : e.regs = d.regs) (a : RegAddr) : regRead e a = regRead d a := by
  simp [regRead, h]

/-! Frames and the device registers -/

@[simp] theorem latch_regs (b : Byte) (d : Device) : (d.latch b).regs = d.regs := rfl
@[simp] theorem advancePtr_regs (d : Device) : d.advancePtr.regs = d.regs := by
  unfold Device.advancePtr; split <;> [split; skip] <;> rfl
@[simp] theorem sensorEffects_regs (p : Params) (k : Nat) (b : Byte) (d : Device) :
    (sensorEffects p k b d).regs = d.regs := by unfold sensorEffects; split <;> rfl
@[simp] theorem stored_regs (b : Byte) (d : Device) :
    (d.stored b).regs = if d.dir = false then (regWrite d d.ptr b).regs else d.regs := by
  unfold Device.stored; cases d.dir <;> rfl

/-- What a frame does to the registers of a device that is not the reference one. -/
theorem followFrame_regs (p : Params) (k : Nat) (b : Byte) (d : Device) :
    (followFrame p k b d).regs = if d.phase = .data ∧ d.dir = false then (regWrite d d.ptr b).regs else d.regs := by
  unfold followFrame; split <;> rename_i h <;> simp [h]

/-- What a frame does to the registers of the reference device. -/
theorem referenceFrame_regs {dummy b r : Byte} {d e : Device} (h : referenceFrame dummy b d = .next (r, e)) :
    e.regs = (if d.phase = .data ∧ d.dir = false then (regWrite d d.ptr b).regs else d.regs) := by
  unfold referenceFrame at h
  split at h <;> rename_i hp <;> simp only [hp]
  · cases h
  · cases h; simp
  · split at h <;> rename_i hd <;> cases h <;> simp [hd]
  · cases h

end Sys2Proof.Machine
end

