-- ==== Sys2Proof/Laws/Operands.lean ====
section
/-! SUPPORT. The numbers the host makes of received bytes: the scale factor and the product (R103 to R106). -/

namespace Sys2Proof.Machine

theorem usableConstant_dps250 : usableConstant (35 / 4) = true := by decide +kernel

theorem usableConstant_mdpsPerLsb (sc : SensitivityScale) : usableConstant (mdpsPerLsb sc) = true := by
  cases sc <;> simp only [mdpsPerLsb]
  · exact usableConstant_dps250
  · split
    · assumption
    · exact usableConstant_dps250
  · split
    · assumption
    · exact usableConstant_dps250

/-- The factor of every scale is positive and finite (R104 to R106; log 26). -/
theorem radPerLsb_range (sc : SensitivityScale) :
    0 < (radPerLsb sc).toNat ∧ (radPerLsb sc).toNat < 0x7F800000 := by
  have h := usableConstant_mdpsPerLsb sc
  simp only [usableConstant, List.all_eq_true, List.mem_range, Bool.and_eq_true, decide_eq_true_eq] at h
  exact h _ (Config.factorError sc).isLt

/-- A zero count gives +0.0 for a positive finite factor (R106). -/
theorem singleScale_zero {f : Single} (h : f.toNat < 0x7F800000) : singleScale 0 f = 0x00000000 := by
  have hs : f.getLsbD 31 = false := Nat.testBit_lt_two_pow (by omega)
  have he : (f.extractLsb' 23 8).toNat ≠ 255 := by
    rw [BitVec.extractLsb'_toNat, Nat.shiftRight_eq_div_pow]
    omega
  simp only [singleScale, if_neg he, hs, Int.natAbs_zero, Nat.zero_mul, singleRound, if_true]
  decide

end Sys2Proof.Machine
end

