-- ==== Sys2Proof/Laws/Ops.lean ====
section
/-! SUPPORT. What each shared operation can do, said once: if it answers a next state, then that state is so. -/

namespace Sys2Proof.Machine

/-! Chaining -/

@[simp] theorem andThen_next_left {α β : Type} (a : α) (f : α → Out β) : andThen (.next a) f = f a := rfl
@[simp] theorem andThen_fault_left {α β : Type} (r : Fault) (f : α → Out β) : andThen (.fault r) f = .fault r := rfl
@[simp] theorem andThen_refused_left {α β : Type} (r : Refusal) (f : α → Out β) :
    andThen (.refused r) f = .refused r := rfl

theorem andThen_eq_next {α β : Type} {o : Out α} {f : α → Out β} {b : β} :
    andThen o f = .next b ↔ ∃ a, o = .next a ∧ f a = .next b := by
  cases o <;> simp [andThen]

/-! Capability primitives: what they leave alone -/

/-- Only the peripheral, the device, the script, the draws and the log of calls may differ. -/
structure BusOnly (s t : State) : Prop where
  transactor : SameTransactor s t
  env : t.env = s.env
  host : t.host = s.host
  par : t.par = s.par
  memory : s.dev.regs.wf = true → t.dev.regs.wf = true

theorem SameTransactor.refl (s : State) : SameTransactor s s := ⟨rfl, rfl, rfl, rfl, rfl, rfl, rfl, rfl, rfl, rfl, rfl⟩

theorem SameTransactor.trans {s t u : State} (h : SameTransactor s t) (g : SameTransactor t u) : SameTransactor s u :=
  ⟨g.selCfg.trans h.selCfg, g.sel.trans h.sel, g.busy.trans h.busy, g.seq.trans h.seq, g.res.trans h.res, g.n.trans h.n,
    g.out.trans h.out, g.keep.trans h.keep, g.inb.trans h.inb, g.caller.trans h.caller, g.owner.trans h.owner⟩

theorem BusOnly.trans {s t u : State} (h : BusOnly s t) (g : BusOnly t u) : BusOnly s u :=
  ⟨h.transactor.trans g.transactor, g.env.trans h.env, g.host.trans h.host, g.par.trans h.par,
    fun w => g.memory (h.memory w)⟩

/-- What a StatusRead that answers does (R21, R66). -/
structure StatusReadDone (s t : State) : Prop where
  bus : BusOnly s t
  shown : shownFlags s = some t.per.flags
  calls : t.calls = s.calls ++ [.statusRead t.per.flags]
  dev : t.dev = s.dev
  ovr : t.per.ovr = s.per.ovr

theorem statusRead_next {s t : State} (h : statusRead s = .next t) : StatusReadDone s t := by
  unfold statusRead at h
  split at h <;> rename_i he
  · cases h
    exact ⟨⟨⟨rfl, rfl, rfl, rfl, rfl, rfl, rfl, rfl, rfl, rfl, rfl⟩, rfl, rfl, rfl, id⟩, by simp [shownFlags, he], rfl, rfl, rfl⟩
  · split at h <;> rename_i hs
    · cases h
    · cases h
      exact ⟨⟨⟨rfl, rfl, rfl, rfl, rfl, rfl, rfl, rfl, rfl, rfl, rfl⟩, rfl, rfl, rfl, id⟩, by simp [shownFlags, he, hs], rfl, rfl, rfl⟩
  · cases h
    exact ⟨⟨⟨rfl, rfl, rfl, rfl, rfl, rfl, rfl, rfl, rfl, rfl, rfl⟩, rfl, rfl, rfl, id⟩, by simp [shownFlags, he], rfl, rfl, rfl⟩

/-- A StatusRead answers whenever the environment has flags to show. -/
theorem statusRead_answers {s : State} {f : Snapshot} (h : shownFlags s = some f) :
    ∃ t, statusRead s = .next t ∧ t.per.flags = f := by
  unfold shownFlags at h
  unfold statusRead
  split at h <;> rename_i he <;> simp only [he]
  · exact ⟨_, rfl, by simpa using h⟩
  · cases hs : s.script.snapshots with
    | nil => simp [hs] at h
    | cons g gs => exact ⟨_, rfl, by simpa [hs] using h⟩
  · exact ⟨_, rfl, by simpa using h⟩

/-! The sensor's three bits -/

theorem mem_interruptConfigs {cfg : DeviceConfig} (h : cfg.interruptEnabled = true) : cfg ∈ interruptConfigs := by
  obtain ⟨rate, cutoff, enabled, scale⟩ := cfg
  cases h
  simp only [interruptConfigs, List.mem_flatMap, List.mem_map]
  exact ⟨rate, List.mem_finRange rate, cutoff, List.mem_finRange cutoff, scale, by cases scale <;> simp, rfl⟩

/-- The byte that initialisation step 3 stores enables the data-ready interrupt (R111, R134). -/
theorem enablesDataReady_encInterrupt {cfg : DeviceConfig} (h : cfg.interruptEnabled = true) :
    enablesDataReady (Config.encInterrupt cfg).1 = true := by
  simp only [enablesDataReady, Bool.or_eq_true, List.any_eq_true, beq_iff_eq]
  exact .inl ⟨cfg, mem_interruptConfigs h, rfl⟩

/-- What a frame can do to the sensor's three bits (R40, R134). -/
structure SensorFrame (p : Params) (d e : Device) : Prop where
  powered : e.powered = d.powered ∨
    (e.powered = true ∧ d.phase = .data ∧ d.dir = false ∧ d.ptr = p.aCtrlPrimary)
  drdyEnabled : e.drdyEnabled = d.drdyEnabled ∨ (d.phase = .data ∧ d.dir = false ∧ d.ptr = p.aCtrlInterrupt)
  dataReady : e.dataReady = d.dataReady ∨
    (e.dataReady = false ∧ d.phase = .data ∧ d.dir = true ∧ isMeasurement p d.ptr = true)

theorem SensorFrame.refl (p : Params) (d : Device) : SensorFrame p d d := ⟨.inl rfl, .inl rfl, .inl rfl⟩

/-- A data frame's byte stored leaves everything of the device but the location. -/
theorem stored_eq (b : Byte) (d : Device) : d.stored b = { d with regs := (d.stored b).regs } := by
  unfold Device.stored; split <;> rfl

theorem advancePtr_sensor (d : Device) : d.advancePtr.powered = d.powered ∧ d.advancePtr.drdyEnabled = d.drdyEnabled ∧
    d.advancePtr.dataReady = d.dataReady := by
  unfold Device.advancePtr
  split <;> [split; skip] <;> exact ⟨rfl, rfl, rfl⟩

theorem followFrame_sensorFrame (p : Params) (k : Nat) (b : Byte) (d : Device) :
    SensorFrame p d (followFrame p k b d) := by
  unfold followFrame
  split
  · exact .refl p d
  · exact ⟨.inl rfl, .inl rfl, .inl rfl⟩
  · rename_i hp
    obtain ⟨h1, h2, h3⟩ := advancePtr_sensor (sensorEffects p k b (d.stored b))
    refine ⟨?_, ?_, ?_⟩ <;> simp only [h1, h2, h3] <;> rw [stored_eq] <;> cases hd : d.dir <;> simp [sensorEffects, hd, hp]
    · tauto
    · tauto
    · cases d.dataReady <;> cases isMeasurement p d.ptr <;> simp
  · exact .refl p d

/-- The reference device has no sensor: its frames leave the three bits (R165). -/
theorem referenceFrame_sensor {dummy b r : Byte} {d e : Device} (h : referenceFrame dummy b d = .next (r, e)) :
    e.powered = d.powered ∧ e.drdyEnabled = d.drdyEnabled ∧ e.dataReady = d.dataReady := by
  unfold referenceFrame at h
  split at h
  · cases h
  · cases h
    exact ⟨rfl, rfl, rfl⟩
  · split at h <;> cases h
    · exact advancePtr_sensor d
    · exact advancePtr_sensor (regWrite d d.ptr b)
  · cases h

theorem referenceFrame_sensorFrame {dummy b r : Byte} {d e : Device} (p : Params)
    (h : referenceFrame dummy b d = .next (r, e)) : SensorFrame p d e :=
  have g := referenceFrame_sensor h
  ⟨.inl g.1, .inl g.2.1, .inl g.2.2⟩

/-- What a DataWrite that answers does (R23, R164). -/
structure DataWriteDone (b : Byte) (s t : State) : Prop where
  bus : BusOnly s t
  calls : t.calls = s.calls ++ [.dataWrite b]
  txByte : t.per.txByte = b
  regs : t.dev.regs = match storeTarget s with
    | some a => (regWrite s.dev a b).regs
    | none => s.dev.regs
  sensor : SensorFrame s.par s.dev t.dev
  ovr : s.per.ovr = true → t.per.ovr = true

theorem receive_ovr {r : Byte} {p : Peripheral} (h : p.ovr = true) : (p.receive r).ovr = true := by
  unfold Peripheral.receive; split <;> simp [h]

theorem receive_txByte (r : Byte) (p : Peripheral) : (p.receive r).txByte = p.txByte := by
  unfold Peripheral.receive; split <;> rfl

/-- What a frame stores, in every environment: its byte at the location storeTarget names, or nothing. -/
theorem regs_of_storeTarget {b : Byte} {s : State} {d : Device}
    (h : d.regs = if s.dev.phase = .data ∧ s.dev.dir = false then (regWrite s.dev s.dev.ptr b).regs else s.dev.regs) :
    d.regs = (match storeTarget s with
      | some a => (regWrite s.dev a b).regs
      | none => s.dev.regs) ∧ (s.dev.regs.wf = true → d.regs.wf = true) := by
  unfold storeTarget
  split at h <;> rename_i hc <;> simp only [hc, if_false]
  · exact ⟨h, fun w => h ▸ regWrite_wf _ _ w⟩
  · exact ⟨h, fun w => h ▸ w⟩

theorem dataWrite_next {b : Byte} {s t : State} (h : dataWrite b s = .next t) : DataWriteDone b s t := by
  unfold dataWrite at h
  split at h
  · cases h
    obtain ⟨h1, h2⟩ := regs_of_storeTarget (followFrame_regs s.par s.draws b s.dev)
    exact ⟨⟨⟨rfl, rfl, rfl, rfl, rfl, rfl, rfl, rfl, rfl, rfl, rfl⟩, rfl, rfl, rfl, h2⟩, rfl, rfl, h1,
      followFrame_sensorFrame _ _ _ _, id⟩
  · cases h
    obtain ⟨h1, h2⟩ := regs_of_storeTarget (followFrame_regs s.par s.draws b s.dev)
    exact ⟨⟨⟨rfl, rfl, rfl, rfl, rfl, rfl, rfl, rfl, rfl, rfl, rfl⟩, rfl, rfl, rfl, h2⟩, rfl, rfl, h1,
      followFrame_sensorFrame _ _ _ _, id⟩
  · obtain ⟨⟨r, e⟩, hf, ht⟩ := andThen_eq_next.1 h
    cases ht
    obtain ⟨h1, h2⟩ := regs_of_storeTarget (referenceFrame_regs hf)
    exact ⟨⟨⟨rfl, rfl, rfl, rfl, rfl, rfl, rfl, rfl, rfl, rfl, rfl⟩, rfl, rfl, rfl, h2⟩, rfl, receive_txByte _ _, h1,
      referenceFrame_sensorFrame _ hf, fun g => receive_ovr g⟩

/-- A DataWrite answers whenever the device takes the frame. -/
theorem dataWrite_answers {b : Byte} {s : State} (h : frameTaken s = true) : ∃ t, dataWrite b s = .next t := by
  unfold frameTaken at h
  split at h <;> rename_i he <;> simp only [dataWrite, he]
  · exact ⟨_, rfl⟩
  · exact ⟨_, rfl⟩
  · simp only [Bool.or_eq_true, decide_eq_true_eq] at h
    rcases h with h | h
    · refine ⟨(s.handOver b).replied s.par.dummy (s.dev.latch b), ?_⟩
      simp only [referenceFrame, h, andThen_next_left]
    · cases hd : s.dev.dir
      · refine ⟨(s.handOver b).replied s.par.dummy (regWrite s.dev s.dev.ptr b).advancePtr, ?_⟩
        simp only [referenceFrame, h, hd, Bool.false_eq_true, if_false, andThen_next_left]
      · refine ⟨(s.handOver b).replied (regRead s.dev s.dev.ptr) s.dev.advancePtr, ?_⟩
        simp only [referenceFrame, h, hd, if_true, andThen_next_left]

/-- What a DataRead that answers does (R23). -/
structure DataReadDone (s t : State) : Prop where
  bus : BusOnly s t
  calls : t.calls = s.calls ++ [.dataRead t.per.rxByte]
  dev : t.dev = s.dev
  ovr : t.per.ovr = s.per.ovr

theorem dataRead_next {s t : State} (h : dataRead s = .next t) : DataReadDone s t := by
  unfold dataRead at h
  split at h <;> rename_i he
  · cases h
    exact ⟨⟨⟨rfl, rfl, rfl, rfl, rfl, rfl, rfl, rfl, rfl, rfl, rfl⟩, rfl, rfl, rfl, id⟩, rfl, rfl, rfl⟩
  · split at h
    · cases h
    · cases h
      exact ⟨⟨⟨rfl, rfl, rfl, rfl, rfl, rfl, rfl, rfl, rfl, rfl, rfl⟩, rfl, rfl, rfl, id⟩, rfl, rfl, rfl⟩
  · cases h
    exact ⟨⟨⟨rfl, rfl, rfl, rfl, rfl, rfl, rfl, rfl, rfl, rfl, rfl⟩, rfl, rfl, rfl, id⟩, rfl, rfl, rfl⟩

/-! The attempts -/

/-- An ATTEMPT_SEND that answers: one StatusRead, and the data write only when it is ready (R63, R66, R68). -/
theorem attemptSend_next {b : Byte} {s t : State} {o : BusOutcome Unit} (h : attemptSend b s = .next (o, t)) :
    ∃ s1, statusRead s = .next s1 ∧ o = classifySend s1.per.flags ∧
      ((o = .ready () ∧ dataWrite b s1 = .next t) ∨ (o ≠ .ready () ∧ t = s1)) := by
  obtain ⟨s1, h1, h2⟩ := andThen_eq_next.1 h
  refine ⟨s1, h1, ?_⟩
  cases hc : classifySend s1.per.flags <;> simp only [hc] at h2
  · obtain ⟨s2, h3, h4⟩ := andThen_eq_next.1 h2
    cases h4
    exact ⟨rfl, .inl ⟨rfl, h3⟩⟩
  · cases h2
    exact ⟨rfl, .inr ⟨by simp, rfl⟩⟩
  · cases h2
    exact ⟨rfl, .inr ⟨by simp, rfl⟩⟩

theorem attemptSend_busOnly {b : Byte} {s t : State} {o : BusOutcome Unit} (h : attemptSend b s = .next (o, t)) :
    BusOnly s t := by
  obtain ⟨s1, h1, -, ⟨-, h2⟩ | ⟨-, rfl⟩⟩ := attemptSend_next h
  · exact (statusRead_next h1).bus.trans (dataWrite_next h2).bus
  · exact (statusRead_next h1).bus

/-- An ATTEMPT_RECEIVE that answers: one StatusRead, and the data read only when it is ready (R64, R66, R68). -/
theorem attemptReceive_next {s t : State} {o : BusOutcome Byte} (h : attemptReceive s = .next (o, t)) :
    ∃ s1, statusRead s = .next s1 ∧
      ((classifyReceive s1.per.flags = .ready () ∧ dataRead s1 = .next t ∧ o = .ready t.per.rxByte) ∨
        (classifyReceive s1.per.flags = .notYetReady ∧ o = .notYetReady ∧ t = s1) ∨
        (∃ k, classifyReceive s1.per.flags = .fault k ∧ o = .fault k ∧ t = s1)) := by
  obtain ⟨s1, h1, h2⟩ := andThen_eq_next.1 h
  refine ⟨s1, h1, ?_⟩
  cases hc : classifyReceive s1.per.flags <;> simp only [hc] at h2
  · obtain ⟨s2, h3, h4⟩ := andThen_eq_next.1 h2
    cases h4
    exact .inl ⟨rfl, h3, rfl⟩
  · cases h2
    exact .inr (.inl ⟨rfl, rfl, rfl⟩)
  · cases h2
    exact .inr (.inr ⟨_, rfl, rfl, rfl⟩)

theorem attemptReceive_busOnly {s t : State} {o : BusOutcome Byte} (h : attemptReceive s = .next (o, t)) :
    BusOnly s t := by
  obtain ⟨s1, h1, h2⟩ := attemptReceive_next h
  rcases h2 with ⟨-, h2, -⟩ | ⟨-, -, rfl⟩ | ⟨k, -, -, rfl⟩
  · exact (statusRead_next h1).bus.trans (dataRead_next h2).bus
  · exact (statusRead_next h1).bus
  · exact (statusRead_next h1).bus

/-! Transactions -/

theorem assertedPhase_of_deasserted {s : State} (h : s.sel = .deasserted) : assertedPhase s = .awaitCmd := by
  simp [assertedPhase, h]

theorem assertedPhase_of_reference {s : State} (h : s.env = .reference) : assertedPhase s = .awaitCmd := by
  simp [assertedPhase, h]

theorem openTransaction_next {c : Caller} {bytes : List Byte} {mask : List Bool} {s t : State}
    (h : openTransaction c bytes mask s = .next t) :
    readyToOpen s ∧ mask.length = bytes.length ∧ bytes.length ≤ s.par.maxLen + 1 ∧ t = openedState c bytes mask s := by
  unfold openTransaction at h
  split at h
  · cases h
  · rename_i hr
    unfold exchangeRefusal at hr
    split at hr <;> [cases hr; skip]
    split at hr <;> [cases hr; skip]
    split at hr <;> [cases hr; skip]
    split at hr <;> [cases hr; skip]
    rename_i h1 h2 h3 h4
    have h1 : s.selCfg = true := by simpa using h1
    simp only [selectAssert, latchTransaction_selCfg, h1, if_true, andThen_next_left] at h
    cases h
    refine ⟨⟨h1, by simpa using h2⟩, by simpa using h3, by omega, ?_⟩
    cases bytes <;> rfl

theorem openTransaction_answers {c : Caller} {bytes : List Byte} {mask : List Bool} {s : State} (h : readyToOpen s)
    (hm : mask.length = bytes.length) (hl : bytes.length ≤ s.par.maxLen + 1) :
    openTransaction c bytes mask s = .next (openedState c bytes mask s) := by
  have hr : exchangeRefusal bytes mask s = none := by
    simp [exchangeRefusal, h.1, h.2, hm, hl]
  simp only [openTransaction, hr, selectAssert, latchTransaction_selCfg, h.1, if_true, andThen_next_left]
  cases bytes <;> rfl

theorem accessRefusal_eq_none {maxLen a n : Nat} : accessRefusal maxLen a n = none ↔ accessAdmitted maxLen a n := by
  unfold accessRefusal accessAdmitted Config.lastAddr
  split <;> [simp; split <;> [simp; split <;> [simp; split <;> simp]]] <;> omega

theorem openAccess_next {c : Caller} {a n : Nat} {bytes : List Byte} {mask : List Bool} {s t : State}
    (h : openAccess c a n bytes mask s = .next t) :
    accessAdmitted s.par.maxLen a n ∧ openTransaction c bytes mask s = .next t := by
  unfold openAccess at h
  split at h
  · cases h
  · rename_i hr
    exact ⟨accessRefusal_eq_none.1 hr, h⟩

theorem openAccess_answers {c : Caller} {a n : Nat} {bytes : List Byte} {mask : List Bool} {s : State} (h : readyToOpen s)
    (ha : accessAdmitted s.par.maxLen a n) (hm : mask.length = bytes.length) (hl : bytes.length ≤ s.par.maxLen + 1) :
    openAccess c a n bytes mask s = .next (openedState c bytes mask s) := by
  simp only [openAccess, accessRefusal_eq_none.2 ha, openTransaction_answers h hm hl]

/-- The result of a closed transaction changes only the host and, for a failed READ, the draws. -/
structure Returned (s t : State) : Prop where
  transactor : SameTransactor s t
  per : t.per = s.per
  dev : t.dev = s.dev
  env : t.env = s.env
  script : t.script = s.script
  calls : t.calls = s.calls
  par : t.par = s.par
  context : t.host.context = s.host.context
  ctl : t.host.ctl = s.host.ctl
  isr : t.host.isr = s.host.isr
  irq : t.host.irq = s.host.irq
  irqOn : t.host.irqOn = s.host.irqOn
  todo : ∀ c, (t.thread c).todo = (s.thread c).todo
  call : ∀ c, (t.thread c).call = (s.thread c).call

theorem returnResult_returned (s : State) : Returned s (returnResult s) := by
  obtain ⟨selCfg, sel, busy, seq, res, n, out, keep, inb, caller, owner, per, dev, env, script, draws, calls, host, par⟩ := s
  cases caller <;> cases res <;> cases owner <;>
    exact ⟨⟨rfl, rfl, rfl, rfl, rfl, rfl, rfl, rfl, rfl, rfl, rfl⟩, rfl, rfl, rfl, rfl, rfl, rfl, rfl, rfl, rfl, rfl, rfl,
      fun c => by cases c <;> rfl, fun c => by cases c <;> rfl⟩

/-- A close that answers: the line is deasserted, the block idle, the result returned (R77). -/
theorem closeTransaction_next {s t : State} (h : closeTransaction s = .next t) :
    s.selCfg = true ∧ t = returnResult (driveDeasserted s).release := by
  obtain ⟨s1, h1, h2⟩ := andThen_eq_next.1 h
  unfold selectDeassert at h1
  split at h1
  · rename_i hc
    cases h1
    cases h2
    exact ⟨hc, rfl⟩
  · cases h1

/-- One step of the sequencer that answers, row by row of R80. -/
theorem sequencerStep_next {s t : State} (h : sequencerStep s = .next t) :
    (∃ i b o u, s.seq = .send i ∧ s.out[i]? = some b ∧ attemptSend b s = .next (o, u) ∧
      ((o = .notYetReady ∧ t = u) ∨ (o = .ready () ∧ t = u.goto (.recv i)) ∨
        (∃ k, o = .fault k ∧ t = abortTransaction k i u))) ∨
    (∃ i kept o u, s.seq = .recv i ∧ s.keep[i]? = some kept ∧ attemptReceive s = .next (o, u) ∧
      ((o = .notYetReady ∧ t = u) ∨ (∃ v, o = .ready v ∧ t = collect kept v i u) ∨
        (∃ k, o = .fault k ∧ t = abortTransaction k i u))) ∨
    (∃ i, s.seq = .close i ∧ closeTransaction s = .next t) := by
  unfold sequencerStep at h
  split at h <;> rename_i hq
  · cases h
  · rename_i i
    unfold sendStep at h
    split at h
    · cases h
    · rename_i b hb
      obtain ⟨⟨o, u⟩, h1, h2⟩ := andThen_eq_next.1 h
      refine .inl ⟨i, b, o, u, hq, hb, h1, ?_⟩
      cases o <;> cases h2
      · exact .inr (.inl ⟨rfl, rfl⟩)
      · exact .inl ⟨rfl, rfl⟩
      · exact .inr (.inr ⟨_, rfl, rfl⟩)
  · rename_i i
    unfold recvStep at h
    split at h
    · cases h
    · rename_i kept hb
      obtain ⟨⟨o, u⟩, h1, h2⟩ := andThen_eq_next.1 h
      refine .inr (.inl ⟨i, kept, o, u, hq, hb, h1, ?_⟩)
      cases o <;> cases h2
      · exact .inr (.inl ⟨_, rfl, rfl⟩)
      · exact .inl ⟨rfl, rfl⟩
      · exact .inr (.inr ⟨_, rfl, rfl⟩)
  · exact .inr (.inr ⟨_, hq, h⟩)

/-- The device's move changes the draws, the pending condition and the interrupt request, nothing else (R134). -/
structure DeviceMoved (s t : State) : Prop where
  transactor : SameTransactor s t
  per : t.per = s.per
  regs : t.dev.regs = s.dev.regs
  powered : t.dev.powered = s.dev.powered
  drdyEnabled : t.dev.drdyEnabled = s.dev.drdyEnabled
  dataReady : t.dev.dataReady = true → s.dev.dataReady = true ∨ (s.dev.powered = true ∧ s.dev.drdyEnabled = true)
  frame : t.dev.phase = s.dev.phase ∧ t.dev.dir = s.dev.dir ∧ t.dev.multi = s.dev.multi ∧ t.dev.ptr = s.dev.ptr
  env : t.env = s.env
  script : t.script = s.script
  calls : t.calls = s.calls
  par : t.par = s.par
  host : t.host = { s.host with irq := t.host.irq }

theorem deviceMove_moved (s : State) : DeviceMoved s (deviceMove s) := by
  unfold deviceMove
  split
  · rename_i hc
    split <;>
      exact ⟨⟨rfl, rfl, rfl, rfl, rfl, rfl, rfl, rfl, rfl, rfl, rfl⟩, rfl, rfl, rfl, rfl, fun _ => .inr ⟨hc.2.1, hc.2.2.1⟩,
        ⟨rfl, rfl, rfl, rfl⟩, rfl, rfl, rfl, rfl, rfl⟩
  · exact ⟨⟨rfl, rfl, rfl, rfl, rfl, rfl, rfl, rfl, rfl, rfl, rfl⟩, rfl, rfl, rfl, rfl, .inl,
      ⟨rfl, rfl, rfl, rfl⟩, rfl, rfl, rfl, rfl, rfl⟩

/-- Outside the oracle the device makes no move of its own. -/
theorem deviceMove_of_not_oracle {s : State} (h : s.env ≠ .oracle) : deviceMove s = s := by
  unfold deviceMove
  rw [if_neg (by simp [h])]

end Sys2Proof.Machine
end

