-- ==== Sys2Proof/Laws/PerInstr.lean ====
section
/-! SUPPORT. Facts stated of every instruction as syntax, one lemma a constructor. -/

namespace Sys2Proof.Laws.EncodedFrames

/-- A well-formed wire form is a command frame and at least one data frame; an operation has no encoding (R52, R57). -/
def Statement (i : Instr) : Prop :=
  ∀ maxLen, i.wellFormed maxLen = true →
    (i.isWire = true → 2 ≤ (encode i).length) ∧ (i.isWire = false → encode i = [])

theorem wr1 (a : RegAddr) (p : Byte) : Statement (.wr1 a p) := fun _ _ => ⟨fun _ => by simp [encode], by simp [Instr.isWire]⟩

theorem wrm (a : RegAddr) (ps : List Byte) : Statement (.wrm a ps) := by
  intro maxLen h
  refine ⟨fun _ => ?_, by simp [Instr.isWire]⟩
  by_cases hl : ps.length < 2
  · simp [Instr.wellFormed, Instr.check, hl] at h
  · simp only [encode, List.length_cons]; omega

theorem rd1 (a : RegAddr) : Statement (.rd1 a) := fun _ _ => ⟨fun _ => by simp [encode], by simp [Instr.isWire]⟩

theorem rdm (a : RegAddr) (n : Nat) : Statement (.rdm a n) := by
  intro maxLen h
  refine ⟨fun _ => ?_, by simp [Instr.isWire]⟩
  by_cases hl : n < 2
  · simp [Instr.wellFormed, Instr.check, hl] at h
  · simp only [encode, List.length_cons, List.length_replicate]; omega

theorem selectAssert : Statement .selectAssert := fun _ _ => ⟨by simp [Instr.isWire], fun _ => rfl⟩
theorem selectDeassert : Statement .selectDeassert := fun _ _ => ⟨by simp [Instr.isWire], fun _ => rfl⟩
theorem attemptSend (b : Byte) : Statement (.attemptSend b) := fun _ _ => ⟨by simp [Instr.isWire], fun _ => rfl⟩
theorem attemptReceive : Statement .attemptReceive := fun _ _ => ⟨by simp [Instr.isWire], fun _ => rfl⟩
theorem exchange (bytesOut : List Byte) (keep : List Bool) : Statement (.exchange bytesOut keep) :=
  fun _ _ => ⟨by simp [Instr.isWire], fun _ => rfl⟩
theorem write (addr : Nat) (payload : List Byte) : Statement (.write addr payload) :=
  fun _ _ => ⟨by simp [Instr.isWire], fun _ => rfl⟩
theorem read (addr n : Nat) : Statement (.read addr n) := fun _ _ => ⟨by simp [Instr.isWire], fun _ => rfl⟩

end Sys2Proof.Laws.EncodedFrames
end

