-- ==== Sys2Proof/Laws/Step.lean ====
section
/-! SUPPORT. What an instruction, a host step and a whole step can do, said once. -/

namespace Sys2Proof.Machine

/-- Only the host may differ. -/
structure HostOnly (s t : State) : Prop where
  transactor : SameTransactor s t
  per : t.per = s.per
  dev : t.dev = s.dev
  env : t.env = s.env
  script : t.script = s.script
  draws : t.draws = s.draws
  calls : t.calls = s.calls
  par : t.par = s.par

theorem HostOnly.refl (s : State) : HostOnly s s := ⟨.refl s, rfl, rfl, rfl, rfl, rfl, rfl, rfl⟩

theorem HostOnly.trans {s t u : State} (h : HostOnly s t) (g : HostOnly t u) : HostOnly s u :=
  ⟨h.transactor.trans g.transactor, g.per.trans h.per, g.dev.trans h.dev, g.env.trans h.env, g.script.trans h.script,
    g.draws.trans h.draws, g.calls.trans h.calls, g.par.trans h.par⟩

theorem hostOnly_setThread (s : State) (c : Context) (t : Thread) : HostOnly s (s.setThread c t) := by
  cases c <;> exact ⟨⟨rfl, rfl, rfl, rfl, rfl, rfl, rfl, rfl, rfl, rfl, rfl⟩, rfl, rfl, rfl, rfl, rfl, rfl, rfl⟩

theorem hostOnly_deliver (s : State) (c : Context) (r : Result) : HostOnly s (s.deliver c r) := hostOnly_setThread _ _ _
theorem hostOnly_popped (s : State) (rest : List Request) : HostOnly s (s.popped rest) := hostOnly_setThread _ _ _
theorem hostOnly_setCall (s : State) (c : Option CallStage) : HostOnly s (s.setCall c) := hostOnly_setThread _ _ _
theorem hostOnly_host (s : State) (h : HostState) : HostOnly s { s with host := h } :=
  ⟨⟨rfl, rfl, rfl, rfl, rfl, rfl, rfl, rfl, rfl, rfl, rfl⟩, rfl, rfl, rfl, rfl, rfl, rfl, rfl⟩

theorem hostOnly_finishCall (r : Result) (s : State) : HostOnly s (finishCall r s) :=
  (hostOnly_setCall s none).trans (hostOnly_deliver _ _ _)

theorem hostOnly_finishInit (r : InitResult) (s : State) : HostOnly s (finishInit r s) :=
  (hostOnly_host s _).trans (hostOnly_finishCall _ _)

/-! Opening a transaction -/

/-- A transaction that was admitted (R72, R73): its operands fit and the state is the one it opens in. -/
structure Opened (c : Caller) (bytes : List Byte) (mask : List Bool) (s t : State) : Prop where
  ready : readyToOpen s
  maskLength : mask.length = bytes.length
  bounded : bytes.length ≤ s.par.maxLen + 1
  state : t = openedState c bytes mask s
  readMask : ∀ m, c = .read m → mask.count true = m

theorem readKeep_count (n : Nat) : (readKeep n).count true = n := by simp [readKeep]
@[simp] theorem readKeep_length (n : Nat) : (readKeep n).length = n + 1 := by simp [readKeep]
@[simp] theorem writeKeep_length (n : Nat) : (writeKeep n).length = n + 1 := by simp [writeKeep]
@[simp] theorem readFrames_length (a : RegAddr) (n : Nat) : (readFrames a n).length = n + 1 := by simp [readFrames]
@[simp] theorem writeFrames_length (a : RegAddr) (p : List Byte) : (writeFrames a p).length = p.length + 1 := by
  simp [writeFrames]

theorem opened_of_openTransaction {c : Caller} {bytes : List Byte} {mask : List Bool} {s t : State}
    (hm : ∀ m, c = .read m → mask.count true = m) (h : openTransaction c bytes mask s = .next t) :
    Opened c bytes mask s t := by
  obtain ⟨h1, h2, h3, h4⟩ := openTransaction_next h
  exact ⟨h1, h2, h3, h4, hm⟩

theorem opened_of_openAccess {c : Caller} {a n : Nat} {bytes : List Byte} {mask : List Bool} {s t : State}
    (hm : ∀ m, c = .read m → mask.count true = m) (h : openAccess c a n bytes mask s = .next t) :
    Opened c bytes mask s t := opened_of_openTransaction hm (openAccess_next h).2

theorem execWrite_opened {a : Nat} {p : List Byte} {s t : State} (h : execWrite a p s = .next t) :
    Opened .write (writeFrames (BitVec.ofNat 6 a) p) (writeKeep p.length) s t :=
  opened_of_openAccess (fun _ e => by cases e) h

theorem execRead_opened {a n : Nat} {s t : State} (h : execRead a n s = .next t) :
    Opened (.read n) (readFrames (BitVec.ofNat 6 a) n) (readKeep n) s t :=
  opened_of_openAccess (fun _ e => by cases e; exact readKeep_count n) h

theorem whenMulti_next {n : Nat} {o : Out State} {t : State} (h : whenMulti n o = .next t) : 2 ≤ n ∧ o = .next t := by
  unfold whenMulti at h
  split at h
  · cases h
  · exact ⟨by omega, h⟩

theorem whenIdle_next {s t : State} {o : Out State} (h : whenIdle s o = .next t) : s.busy = false ∧ o = .next t := by
  unfold whenIdle at h
  split at h
  · cases h
  · rename_i hb
    exact ⟨by simpa using hb, h⟩

/-- An instruction that answers opens a transaction, or drives the select line, or is one attempt. -/
theorem exec_next {i : Instr} {s t : State} (h : exec i s = .next t) :
    (∃ c bytes mask, Opened c bytes mask s t) ∨
    (i = .selectAssert ∧ readyToOpen s ∧ t = driveAsserted s) ∨
    (i = .selectDeassert ∧ readyToOpen s ∧ t = driveDeasserted s) ∨
    (∃ b o u, i = .attemptSend b ∧ s.busy = false ∧ attemptSend b s = .next (o, u) ∧
      t = u.deliver u.host.context (.send o)) ∨
    (∃ o u, i = .attemptReceive ∧ s.busy = false ∧ attemptReceive s = .next (o, u) ∧
      t = u.deliver u.host.context (.receive o)) := by
  cases i with
  | wr1 a p => exact .inl ⟨_, _, _, opened_of_openAccess (fun _ e => by cases e) h⟩
  | wrm a ps => exact .inl ⟨_, _, _, opened_of_openAccess (fun _ e => by cases e) (whenMulti_next h).2⟩
  | rd1 a => exact .inl ⟨_, _, _, opened_of_openAccess (fun _ e => by cases e; exact readKeep_count 1) h⟩
  | rdm a n =>
    exact .inl ⟨_, _, _, opened_of_openAccess (fun _ e => by cases e; exact readKeep_count n) (whenMulti_next h).2⟩
  | exchange out mask => exact .inl ⟨_, _, _, opened_of_openTransaction (fun _ e => by cases e) h⟩
  | write a p => exact .inl ⟨_, _, _, execWrite_opened h⟩
  | read a n => exact .inl ⟨_, _, _, execRead_opened h⟩
  | selectAssert =>
    obtain ⟨hb, h⟩ := whenIdle_next h
    unfold selectAssert at h
    split at h
    · rename_i hc
      cases h
      exact .inr (.inl ⟨rfl, ⟨hc, hb⟩, rfl⟩)
    · cases h
  | selectDeassert =>
    obtain ⟨hb, h⟩ := whenIdle_next h
    unfold selectDeassert at h
    split at h
    · rename_i hc
      cases h
      exact .inr (.inr (.inl ⟨rfl, ⟨hc, hb⟩, rfl⟩))
    · cases h
  | attemptSend b =>
    obtain ⟨hb, h⟩ := whenIdle_next h
    obtain ⟨⟨o, u⟩, h1, h2⟩ := andThen_eq_next.1 h
    cases h2
    exact .inr (.inr (.inr (.inl ⟨b, o, u, rfl, hb, h1, rfl⟩)))
  | attemptReceive =>
    obtain ⟨hb, h⟩ := whenIdle_next h
    obtain ⟨⟨o, u⟩, h1, h2⟩ := andThen_eq_next.1 h
    cases h2
    exact .inr (.inr (.inr (.inr ⟨o, u, rfl, hb, h1, rfl⟩)))

/-! The controller's calls -/

/-- A transaction opened for a call, and the call's stage set. -/
theorem writePayload_next {a : RegAddr} {p : Byte × List Byte} {st : CallStage} {s t : State}
    (h : writePayload a p st s = .next t) :
    ∃ u, Opened .write (writeFrames a (p.1 :: p.2)) (writeKeep (p.2.length + 1)) s u ∧ t = u.setCall (some st) := by
  obtain ⟨u, h1, h2⟩ := andThen_eq_next.1 h
  cases h2
  exact ⟨u, by simpa using execWrite_opened h1, rfl⟩

theorem readRegister_next {a : RegAddr} {n : Nat} {st : CallStage} {s t : State} (h : readRegister a n st s = .next t) :
    ∃ u, Opened (.read n) (readFrames a n) (readKeep n) s u ∧ t = u.setCall (some st) := by
  obtain ⟨u, h1, h2⟩ := andThen_eq_next.1 h
  cases h2
  exact ⟨u, by simpa using execRead_opened h1, rfl⟩

/-- A stage's write answers, in the state its transaction opens in, when the block can open it (R72, R92). -/
theorem writePayload_answers {a : RegAddr} {p : Byte × List Byte} {st : CallStage} {s : State} (h : readyToOpen s)
    (ha : accessAdmitted s.par.maxLen a.toNat (p.2.length + 1)) :
    writePayload a p st s =
      .next ((openedState .write (writeFrames a (p.1 :: p.2)) (writeKeep (p.2.length + 1)) s).setCall (some st)) := by
  have := openAccess_answers (c := .write) (bytes := writeFrames (BitVec.ofNat 6 a.toNat) (p.1 :: p.2))
    (mask := writeKeep (p.1 :: p.2).length) h ha (by simp) (by have := ha.2.2.1; simpa using this)
  rw [BitVec.ofNat_toNat, BitVec.setWidth_eq] at this
  simp only [writePayload, execWrite, BitVec.ofNat_toNat, BitVec.setWidth_eq]
  rw [show (p.1 :: p.2).length = p.2.length + 1 from rfl] at this ⊢
  rw [this]
  rfl

/-- A stage's read, likewise. -/
theorem readRegister_answers {a : RegAddr} {n : Nat} {st : CallStage} {s : State} (h : readyToOpen s)
    (ha : accessAdmitted s.par.maxLen a.toNat n) :
    readRegister a n st s =
      .next ((openedState (.read n) (readFrames a n) (readKeep n) s).setCall (some st)) := by
  have := openAccess_answers (c := .read n) (bytes := readFrames (BitVec.ofNat 6 a.toNat) n) (mask := readKeep n) h ha
    (by simp) (by have := ha.2.2.1; simpa using this)
  rw [BitVec.ofNat_toNat, BitVec.setWidth_eq] at this
  simp only [readRegister, execRead, BitVec.ofNat_toNat, BitVec.setWidth_eq]
  rw [this]
  rfl

/-- A call that goes on ends with a result, or opens the transaction of its next stage. -/
theorem continueCall_next {st : CallStage} {s t : State} (h : continueCall st s = .next t) :
    (∃ r, t = finishInit r s) ∨ (∃ r, t = finishCall r s) ∨
    (∃ c mask st' u, Opened c (stageFrames s.par st') mask s u ∧ t = u.setCall (some st')) := by
  have hw : ∀ {a p st' mask}, writePayload a p st' s = .next t →
      stageFrames s.par st' = writeFrames a (p.1 :: p.2) → mask = writeKeep (p.2.length + 1) →
      ∃ c mask st' u, Opened c (stageFrames s.par st') mask s u ∧ t = u.setCall (some st') := by
    intro a p st' mask h1 h2 _
    obtain ⟨u, h3, h4⟩ := writePayload_next h1
    exact ⟨_, _, st', u, h2 ▸ h3, h4⟩
  cases st with
  | initStart cfg =>
    obtain ⟨u, h1, h2⟩ := readRegister_next h
    exact .inr (.inr ⟨_, _, .initIdentity cfg, u, h1, h2⟩)
  | initIdentity cfg =>
    simp only [continueCall, afterIdentity] at h
    split at h
    · cases h; exact .inl ⟨_, rfl⟩
    · split at h
      · split at h
        · exact .inr (.inr (hw h rfl rfl))
        · exact .inr (.inr (hw h rfl rfl))
      · cases h; exact .inl ⟨_, rfl⟩
    · cases h
  | initInterrupt cfg =>
    simp only [continueCall, afterWrite] at h
    split at h
    · cases h; exact .inl ⟨_, rfl⟩
    · exact .inr (.inr (hw h rfl rfl))
    · cases h
  | initRange cfg =>
    simp only [continueCall, afterWrite] at h
    split at h
    · cases h; exact .inl ⟨_, rfl⟩
    · exact .inr (.inr (hw h rfl rfl))
    · cases h
  | initPrimary cfg =>
    simp only [continueCall, afterWrite] at h
    split at h
    · cases h; exact .inl ⟨_, rfl⟩
    · cases h; exact .inl ⟨_, rfl⟩
    · cases h
  | status =>
    simp only [continueCall, afterStatus] at h
    split at h
    · cases h; exact .inr (.inl ⟨_, rfl⟩)
    · cases h; exact .inr (.inl ⟨_, rfl⟩)
    · cases h
  | measurement sc =>
    simp only [continueCall, afterMeasurement] at h
    split at h
    · cases h; exact .inr (.inl ⟨_, rfl⟩)
    · cases h; exact .inr (.inl ⟨_, rfl⟩)
    · cases h

/-- A call that begins configures the line, or opens the transaction of a read. -/
theorem startCall_next {c : HostCall} {s t : State} (h : startCall c s = .next t) :
    (∃ cfg, c = .initDevice cfg ∧ s.busy = false ∧ t = (configureSelect s).setCall (some (.initStart cfg))) ∨
    (∃ c' mask st u, s.host.ctl = .ready ∧ Opened c' (stageFrames s.par st) mask s u ∧ t = u.setCall (some st)) := by
  cases c with
  | initDevice cfg =>
    simp only [startCall] at h
    split at h
    · cases h
    · rename_i hb
      cases h
      exact .inl ⟨cfg, rfl, by simpa using hb, rfl⟩
  | readStatus =>
    simp only [startCall] at h
    split at h
    · rename_i hc
      obtain ⟨u, h1, h2⟩ := readRegister_next h
      exact .inr ⟨_, _, .status, u, hc, h1, h2⟩
    · cases h
  | readMeasurement sc =>
    simp only [startCall] at h
    split at h
    · rename_i hc
      obtain ⟨u, h1, h2⟩ := readRegister_next h
      exact .inr ⟨_, _, .measurement sc, u, hc, h1, h2⟩
    · cases h

/-- What a host step can do: nothing on the bus, or open a transaction, or configure the line, or make one of the direct
requests of R167. In each case the rest of the change is the host's own. -/
theorem hostStep_next {s t : State} (h : hostStep s = .next t) :
    HostOnly s t ∨
    (∃ s' u c bytes mask, HostOnly s s' ∧ s'.host.context = s.host.context ∧ Opened c bytes mask s' u ∧ HostOnly u t) ∨
    (∃ s', HostOnly s s' ∧ s.busy = false ∧ HostOnly (configureSelect s') t) ∨
    (∃ s' i, HostOnly s s' ∧ s'.host.context = s.host.context ∧ exec i s' = .next t ∧
      ∃ rest, (s.thread s.host.context).todo = .op i :: rest ∧ s' = s.popped rest) := by
  unfold hostStep at h
  split at h
  · rename_i st hst
    rcases continueCall_next h with ⟨r, rfl⟩ | ⟨r, rfl⟩ | ⟨c, mask, st', u, ho, rfl⟩
    · exact .inl (hostOnly_finishInit _ _)
    · exact .inl (hostOnly_finishCall _ _)
    · exact .inr (.inl ⟨s, u, c, _, mask, .refl s, rfl, ho, hostOnly_setCall _ _⟩)
  · split at h
    · unfold outOfRequests at h
      split at h <;> cases h
      · exact .inl (.refl _)
      · exact .inl (hostOnly_host _ _)
    · rename_i r rest hr
      cases r with
      | frames bs =>
        simp only [makeRequest, runFrames] at h
        split at h
        · rename_i i hi
          have hx := exec_next h
          have hw : i.isWire = true := by
            revert hi
            match bs with
            | [] => simp [decodeFrames]
            | [_] => simp [decodeFrames]
            | [_, _] => simp only [decodeFrames]; split <;> intro e <;> cases e <;> rfl
            | _ :: _ :: _ :: _ => simp only [decodeFrames]; split <;> intro e <;> cases e <;> rfl
          rcases hx with ⟨c, bytes, mask, ho⟩ | ⟨rfl, -⟩ | ⟨rfl, -⟩ | ⟨b, o, u, rfl, -⟩ | ⟨o, u, rfl, -⟩
          · exact .inr (.inl ⟨_, t, c, bytes, mask, hostOnly_popped s rest, by simp, ho, .refl _⟩)
          all_goals cases hw
        · cases h
      | op i => exact .inr (.inr (.inr ⟨_, i, hostOnly_popped s rest, by simp, h, rest, hr, rfl⟩))
      | call c =>
        rcases startCall_next h with ⟨cfg, -, hb, rfl⟩ | ⟨c', mask, st, u, -, ho, rfl⟩
        · exact .inr (.inr (.inl ⟨_, hostOnly_popped s rest, by simpa using hb, hostOnly_setCall _ _⟩))
        · exact .inr (.inl ⟨_, u, c', _, mask, hostOnly_popped s rest, by simp, ho, hostOnly_setCall _ _⟩)
      | setInterrupt on =>
        cases h
        exact .inl ((hostOnly_popped s rest).trans (hostOnly_host _ _))

/-- What a step can do, after the device's move. -/
theorem step_next {s t : State} (h : step s = .next t) :
    (interruptTaken (deviceMove s) = true ∧ t = enterHandler (deviceMove s)) ∨
    (interruptTaken (deviceMove s) = false ∧ waitsForBus (deviceMove s) = true ∧ sequencerStep (deviceMove s) = .next t) ∨
    (interruptTaken (deviceMove s) = false ∧ waitsForBus (deviceMove s) = false ∧ hostStep (deviceMove s) = .next t) := by
  unfold step agentStep at h
  split at h
  · rename_i hi
    cases h
    exact .inl ⟨hi, rfl⟩
  · rename_i hi
    split at h
    · rename_i hw
      exact .inr (.inl ⟨by simpa using hi, hw, h⟩)
    · rename_i hw
      exact .inr (.inr ⟨by simpa using hi, by simpa using hw, h⟩)

/-! Runs -/

theorem run_succ_of_step {M : Host.Core} {s t : M.State} (k : Nat) (h : M.step s = .next t) :
    M.run (k + 1) s = M.run k t := by
  simp only [Host.Core.run, h]

theorem run_add_of_run {M : Host.Core} {s t : M.State} (k l : Nat) (h : M.run k s = .next t) :
    M.run (k + l) s = M.run l t := by
  induction k generalizing s with
  | zero => cases h; simp
  | succ k ih =>
    rw [Nat.add_right_comm]
    simp only [Host.Core.run] at h ⊢
    split at h
    · exact ih h
    · cases h
    · cases h

/-- The device's move leaves the running context's place in the host alone. -/
theorem deviceMove_host (s : State) :
    (deviceMove s).host.context = s.host.context ∧ (deviceMove s).host.ordinary = s.host.ordinary ∧
      (deviceMove s).host.handler = s.host.handler ∧ (deviceMove s).host.isr = s.host.isr ∧
      (deviceMove s).host.ctl = s.host.ctl ∧ (deviceMove s).host.irqOn = s.host.irqOn := by
  have h := (deviceMove_moved s).host
  generalize (deviceMove s).host = k at h
  rw [h]
  exact ⟨rfl, rfl, rfl, rfl, rfl, rfl⟩

@[simp] theorem deviceMove_waitsForBus (s : State) : waitsForBus (deviceMove s) = waitsForBus s := by
  have h := deviceMove_moved s
  simp only [waitsForBus, h.transactor.busy, h.transactor.owner, (deviceMove_host s).1]

@[simp] theorem deviceMove_thread (s : State) (c : Context) : (deviceMove s).thread c = s.thread c := by
  cases c
  · exact (deviceMove_host s).2.1
  · exact (deviceMove_host s).2.2.1

end Sys2Proof.Machine
end

