-- ==== Sys2Proof/Tests/Slice0.lean ====
section
/-! SUPPORT. The model's own tests, each about one step, and for each obligation with hypotheses a state that meets them all.
Expected values come from spec/95_test_vectors.md (the section named in a comment) or from the rule named. -/

namespace Sys2Proof.Tests

open Sys2Proof Sys2Proof.Machine

/-! Small states -/

/-- The parameters of 95_test_vectors.md P5 (a). -/
def par0 : Params :=
  { maxLen := 64
    aIdentity := 0x0F
    aCtrlPrimary := 0x20
    aCtrlInterrupt := 0x22
    aCtrlRange := 0x23
    aTemperature := 0x26
    aStatus := 0x27
    aAxis0Low := 0x28
    deviceId := 0xD4
    dummy := 0xFF }

/-- A configured, idle block in the scripted environment: the start state of 95_test_vectors.md section 2.3. -/
def ready0 : State := { State.reset with selCfg := true, env := .scripted, par := par0 }

/-- The same in the reference environment, with stored registers. -/
def refState (regs : Memory) : State :=
  { ready0 with env := .reference, dev := { Device.atReset with regs := regs } }

def scripted (fs : List Snapshot) (bs : List Byte) (s : State) : State := { s with script := ⟨fs, bs⟩ }

/-- The ordinary context is about to make these requests. -/
def asking (rs : List Request) (s : State) : State :=
  { s with host := { s.host with ordinary := { s.host.ordinary with todo := rs } } }

/-- The ordinary context is inside a call, and was returned this. -/
def calling (st : CallStage) (r : Option Result) (s : State) : State :=
  { s with host := { s.host with ordinary := { s.host.ordinary with call := some st, result := r } } }

/-- An EXCHANGE of two bytes in flight, at this position. -/
def midway (q : Seq) (s : State) : State :=
  { s with busy := true, seq := q, sel := .asserted, n := 2, out := [0x12, 0x34], keep := [true, true] }

/-- Snapshots in the order of 95_test_vectors.md: overrun, mode fault, checksum error, transmit ready, receive ready. -/
def snap (o m c t r : Bool) : Snapshot := ⟨o, m, c, t, r⟩
def none5 : Snapshot := snap false false false false false
def sendOk : Snapshot := snap false false false true false
def recvOk : Snapshot := snap false false false false true

/-- The state an operation answers. -/
def answered (o : Out State) : Option State :=
  match o with
  | .next s => some s
  | .fault _ => none
  | .refused _ => none

/-! Well-formedness: an ill-formed term for each check, and the edges that pass -/

/-- R127: the four ordinals, and no code for the outcomes that have none. -/
theorem test_outcome_codes :
    [FaultKind.overrun, .modeFault, .checksumError].map FaultKind.code = [1, 2, 3] ∧
      InitResult.identityMismatch.code = some 4 ∧ (InitResult.fault .modeFault).code = some 2 ∧
      (BusOutcome.fault .checksumError : BusOutcome Byte).code = some 3 ∧
      (BusOutcome.notYetReady : BusOutcome Byte).code = none ∧ (BusOutcome.ready ()).code = none := by decide

theorem test_refuses_address_out_of_range : (Instr.write 0xFF [0x00]).check 64 = some .addressOutOfRange := by decide
theorem test_refuses_empty_payload : (Instr.read 0x27 0).check 64 = some .emptyPayload := by decide
theorem test_refuses_too_long : (Instr.read 0x00 5).check 4 = some .tooLong := by decide
theorem test_refuses_pointer_wrap : (Instr.read 0x28 25).check 64 = some .pointerWrap := by decide
theorem test_refuses_malformed_request : (Instr.exchange [0x12, 0x34] [true]).check 64 = some .malformedRequest := by decide
theorem test_refuses_long_exchange : (Instr.exchange [0, 0, 0] [true, true, true]).check 1 = some .tooLong := by decide
theorem test_refuses_form_mismatch : (Instr.wrm 0x20 [0x0F]).check 64 = some .formMismatch := by decide
theorem test_admits_the_edges :
    (Instr.read 0x28 24).check 64 = none ∧ (Instr.write 0x3E [0x01, 0x02]).check 64 = none ∧
      (Instr.read 0x00 64).check 64 = none ∧ (Instr.exchange [] []).check 64 = none := by decide

/-! Decoding: words written out from R48 and the rows of R88 to R91 -/

-- WR1 is 00aaaaaa: address 0x23 = 100011 gives 00100011, then the payload byte (W1 of section 2.4)
theorem test_decode_wr1 : decodeFrames [0b00100011, 0x10] = .ok (.wr1 0x23 0x10) := by decide
-- WRM is 01aaaaaa: address 0x20 = 100000 gives 01100000 (W2)
theorem test_decode_wrm : decodeFrames [0b01100000, 0x0F, 0x00] = .ok (.wrm 0x20 [0x0F, 0x00]) := by decide
-- RD1 is 10aaaaaa: address 0x27 = 100111 gives 10100111 (Q1)
theorem test_decode_rd1 : decodeFrames [0b10100111, 0x00] = .ok (.rd1 0x27) := by decide
-- RDM is 11aaaaaa: address 0x28 = 101000 gives 11101000 (Q2)
theorem test_decode_rdm : decodeFrames [0b11101000, 0, 0, 0, 0, 0, 0] = .ok (.rdm 0x28 6) := by decide
-- section 2.1, the decoding table
theorem test_decode_command_bytes :
    [0x00, 0x3F, 0x40, 0x7F, 0x80, 0xBF, 0xC0, 0xFF].map decodeCommand =
      [(.wr1, 0x00), (.wr1, 0x3F), (.wrm, 0x00), (.wrm, 0x3F), (.rd1, 0x00), (.rd1, 0x3F), (.rdm, 0x00), (.rdm, 0x3F)] := by
  decide
-- R55
theorem test_decode_rejects :
    decodeFrames [] = .error .noCommand ∧ decodeFrames [0x23] = .error .noData ∧
      decodeFrames [0x60, 0x0F] = .error .multiWithOne ∧ decodeFrames [0xA7, 0, 0] = .error .singleWithMany := by
  decide
-- the four rows of the table with every data bit zero
theorem test_table_words :
    decodeTableWord 8 0x23 = some (.wr1 0x23 0) ∧ decodeTableWord 8 0x60 = some (.wrm 0x20 [0, 0]) ∧
      decodeTableWord 8 0xA7 = some (.rd1 0x27) ∧ decodeTableWord 8 0xE8 = some (.rdm 0x28 2) ∧
      decodeTableWord 0 0 = none := by decide
-- section 2.1, the encoder table
theorem test_encode_commands :
    [encodeCmd false 1 0x3F, encodeCmd true 1 0x3F, encodeCmd false 2 0x3E, encodeCmd true 64 0x00, encodeCmd true 2 0x28] =
      [0x3F, 0xBF, 0x7E, 0xC0, 0xE8] := by decide
-- R35: 0xA7 goes out as 1 0 1 0 0 1 1 1
theorem test_wire_order : wireBits 0xA7 = [true, false, true, false, false, true, true, true] := by decide

/-! One step of each instruction -/

-- the first step after reset of a placed word: WR1 0x23 with a zero payload opens its transaction
theorem test_placed_word_runs :
    (answered (step (State.reset.withFetchWord 8 0x23))).map (fun t => (t.out, t.seq, t.sel, t.calls)) =
      some ([0x23, 0x00], .send 0, .asserted, [.selectAssert]) := by decide
-- W2
theorem test_wrm_opens :
    (answered (exec (.wrm 0x20 [0x0F, 0x00]) ready0)).map (fun t => (t.out, t.keep, t.n)) =
      some ([0x60, 0x0F, 0x00], [false, false, false], 3) := by decide
-- Q1
theorem test_rd1_opens :
    (answered (exec (.rd1 0x27) ready0)).map (fun t => (t.out, t.keep)) = some ([0xA7, 0x00], [false, true]) := by decide
-- Q5
theorem test_rdm_opens :
    (answered (exec (.rdm 0x26 2) ready0)).map (fun t => (t.out, t.keep)) =
      some ([0xE6, 0x00, 0x00], [false, true, true]) := by decide
-- W4
theorem test_write_opens :
    (answered (exec (.write 0x3E [0x01, 0x02]) ready0)).map (fun t => (t.out, t.keep, t.caller)) =
      some ([0x7E, 0x01, 0x02], [false, false, false], .write) := by decide
-- Q4
theorem test_read_opens :
    (answered (exec (.read 0x3F 1) ready0)).map (fun t => (t.out, t.keep, t.caller)) =
      some ([0xBF, 0x00], [false, true], .read 1) := by decide
-- X5: an EXCHANGE of nothing goes straight to the close
theorem test_exchange_of_nothing :
    (answered (exec (.exchange [] []) ready0)).map (fun t => (t.seq, t.busy)) = some (.close 0, true) := by decide
-- X6
theorem test_exchange_does_not_nest :
    exec (.exchange [0x12] [true]) (midway (.send 0) ready0) = .refused .reentrantExchange := rfl
-- R61, R163
theorem test_select_assert :
    (answered (exec .selectAssert ready0)).map (fun t => (t.sel.high, t.dev.phase)) = some (false, .awaitCmd) := by decide
-- R26, R163: on a line left asserted a device stays locked in its transaction, and the reference device starts over
theorem test_select_assert_again :
    (answered (exec .selectAssert { ready0 with sel := .asserted, dev := { Device.atReset with phase := .data } })).map
        (fun t => t.dev.phase) = some .data ∧
      (answered (exec .selectAssert
        { refState [] with sel := .asserted, dev := { Device.atReset with phase := .data } })).map
        (fun t => t.dev.phase) = some .awaitCmd := by decide
-- R62
theorem test_select_deassert :
    (answered (exec .selectDeassert (refState []))).map (fun t => (t.sel.high, t.dev.phase)) = some (true, .idle) := by decide
-- T1
theorem test_attempt_send_ready :
    (answered (exec (.attemptSend 0xA7) (scripted [sendOk] [] ready0))).map
        (fun t => (t.calls, t.host.ordinary.result)) =
      some ([.statusRead sendOk, .dataWrite 0xA7], some (.send (.ready ()))) := by decide
-- T8
theorem test_attempt_send_fault_first :
    (answered (exec (.attemptSend 0xA7) (scripted [snap false true true true true] [] ready0))).map
        (fun t => (t.calls.length, t.host.ordinary.result)) = some (1, some (.send (.fault .modeFault))) := by decide
-- T9
theorem test_attempt_receive_ready :
    (answered (exec .attemptReceive (scripted [recvOk] [0xD4] ready0))).map
        (fun t => (t.calls, t.host.ordinary.result)) =
      some ([.statusRead recvOk, .dataRead 0xD4], some (.receive (.ready 0xD4))) := by decide
-- T10: the transmit flag is not looked at
theorem test_attempt_receive_not_ready :
    (answered (exec .attemptReceive (scripted [sendOk] [0xD4] ready0))).map
        (fun t => (t.script.bytes, t.host.ordinary.result)) = some ([0xD4], some (.receive .notYetReady)) := by decide
-- X4, its last row but one: a checksum error in the second receive
theorem test_fault_goes_to_the_close :
    (answered (step (scripted [snap false false true true true] [0xCD] (midway (.recv 1) ready0)))).map
        (fun t => (t.seq, t.res, t.script.bytes)) = some (.close 1, some .checksumError, [0xCD]) := by decide
-- the end of X1: the second byte is kept and the close follows
theorem test_last_byte_collected :
    (answered (step (scripted [recvOk] [0xCD] { midway (.recv 1) ready0 with inb := [0xAB] }))).map
        (fun t => (t.inb, t.seq)) = some ([0xAB, 0xCD], .close 2) := by decide
-- P2: a data frame of a multi-byte write stores and advances
theorem test_reference_store :
    (answered (dataWrite 0x0F { refState [] with
        dev := { Device.atReset with phase := .data, multi := true, ptr := 0x20 } })).map
        (fun t => (t.dev.regs, t.dev.ptr, t.per.rxByte)) = some ([(0x20, 0x0F)], 0x21, 0xFF) := by decide
-- section 2.5, S5
theorem test_status_byte : decodeStatus 0x91 = ⟨true, false, false, true, false, false, false, true⟩ := by decide
-- section 2.6, the integer part
theorem test_axis_counts :
    [asSigned16 (wordOf 0xFF 0xFF), asSigned16 (wordOf 0x34 0x12), asSigned16 (wordOf 0x00 0x80)] = [-1, 4660, -32768] := by
  decide
-- section 2.6, the products of the factor 0x39202279 that need no rounding, and zero
theorem test_scaled_counts :
    [singleScale 0 0x39202279, singleScale 1 0x39202279, singleScale (-1) 0x39202279, singleScale (-32768) 0x39202279] =
      [0x00000000, 0x39202279, 0xB9202279, 0xC0A02279] := by decide +kernel
-- section 2.6, a product that is rounded
theorem test_scaled_count_rounds : singleScale 4660 0x39202279 = 0x3F362F38 := by decide +kernel

-- R105, R106: the exact formula for Dps250 rounds to 0x39202279, and the free error moves it by five patterns at most
theorem test_scale_factor_exact : scaleFactor (35 / 4) 8 = 0x39202279 := by decide +kernel
theorem test_scale_factor_bounds :
    ∀ k : Fin 17, 0x39202274 ≤ (scaleFactor (35 / 4) k.val).toNat ∧ (scaleFactor (35 / 4) k.val).toNat ≤ 0x3920227E := by
  decide +kernel
-- R10: distinct addresses that fit, and two that coincide
theorem test_parameters :
    par0.wellFormed = true ∧ Params.fallback.wellFormed = true ∧ { par0 with aStatus := 0x28 }.wellFormed = false ∧
      { par0 with maxLen := 0 }.wellFormed = false := by decide

/-! Witnesses: for each obligation with hypotheses, a state that meets them together -/

theorem witness_WireFormsDecodeToThemselves :
    (Instr.wr1 0x3F 0xFF).wellFormed 1 = true ∧ (Instr.wrm 0x3E [1, 2]).wellFormed 2 = true ∧
      (Instr.rd1 0x3F).wellFormed 1 = true ∧ (Instr.rdm 0x00 64).wellFormed 64 = true ∧
      (Instr.rdm 0x00 64).isWire = true := by decide

theorem witness_DecodedFramesAreOfTheirForm :
    decodeFrames [0x7E, 1, 2] = .ok (.wrm 0x3E [1, 2]) ∧ cmdDir ([0x7E, 1, 2].headD 0) = false ∧
      (0x60 : Byte).getLsbD 6 = true ∧ [(0x0F : Byte)].length = 1 ∧ (0xA7 : Byte).getLsbD 6 = false ∧
      1 < [(0 : Byte), 0].length := by decide

theorem witness_StepRunsDecodedFrames :
    ((asking [.frames [0xA7, 0x00]] ready0).thread .ordinary).call = none ∧
      ((asking [.frames [0xA7, 0x00]] ready0).thread .ordinary).todo = [.frames [0xA7, 0x00]] ∧
      decodeFrames [0xA7, 0x00] = .ok (.rd1 0x27) ∧ waitsForBus (asking [.frames [0xA7, 0x00]] ready0) = false ∧
      interruptTaken (deviceMove (asking [.frames [0xA7, 0x00]] ready0)) = false := by decide

/-- The clause about frames of no form. -/
theorem witness_StepRunsDecodedFrames_refused :
    decodeFrames [0x60, 0x0F] = .error .multiWithOne ∧
      ((asking [.frames [0x60, 0x0F]] ready0).thread .ordinary).todo = [.frames [0x60, 0x0F]] ∧
      interruptTaken (deviceMove (asking [.frames [0x60, 0x0F]] ready0)) = false := by decide

theorem witness_StepRunsRequestedOperation :
    ((asking [.op .attemptReceive] ready0).thread .ordinary).call = none ∧
      ((asking [.op .attemptReceive] ready0).thread .ordinary).todo = [.op .attemptReceive] ∧
      waitsForBus (asking [.op .attemptReceive] ready0) = false ∧
      interruptTaken (deviceMove (asking [.op .attemptReceive] ready0)) = false := by decide

theorem witness_PlacedTableWordRunsNext : decodeTableWord 8 0xFF = some (.rdm 0x3F 2) := by decide

theorem witness_SelectAssertDrivesLineLow :
    readyToOpen ready0 ∧ State.reset.busy = false ∧ State.reset.selCfg = false := ⟨⟨rfl, rfl⟩, rfl, rfl⟩

/-- The line is deasserted already in this state. -/
theorem witness_SelectDeassertDrivesLineHigh :
    readyToOpen ready0 ∧ ready0.sel = .deasserted ∧ State.reset.busy = false ∧ State.reset.selCfg = false :=
  ⟨⟨rfl, rfl⟩, rfl, rfl, rfl⟩

theorem witness_AttemptSendCompletes :
    (scripted [sendOk] [] ready0).busy = false ∧ shownFlags (scripted [sendOk] [] ready0) = some sendOk ∧
      classifySend sendOk = .ready () ∧ frameTaken (scripted [sendOk] [] ready0) = true := by decide

/-- The clause about the location stored to. -/
theorem witness_AttemptSendCompletes_store :
    storeTarget { refState [] with dev := { Device.atReset with phase := .data, ptr := 0x3F } } = some 0x3F ∧
      frameTaken { refState [] with dev := { Device.atReset with phase := .data, ptr := 0x3F } } = true ∧
      (shownFlags { refState [] with dev := { Device.atReset with phase := .data, ptr := 0x3F } }).map classifySend =
        some (.ready ()) := by decide

/-- The clause about a reference device that takes no frame. -/
theorem witness_AttemptSendCompletes_refused :
    frameTaken (refState []) = false ∧ (shownFlags (refState [])).map classifySend = some (.ready ()) := by decide

theorem witness_AttemptReceiveCompletes :
    (scripted [recvOk] [0xD4] ready0).busy = false ∧ shownFlags (scripted [recvOk] [0xD4] ready0) = some recvOk ∧
      classifyReceive recvOk = .ready () ∧ shownByte (scripted [recvOk] [0xD4] ready0) = some 0xD4 := by decide

/-- The longest admitted EXCHANGE when MAX_LEN is 1, one byte more, and a mask that is too short. -/
theorem witness_ExchangeAdmission :
    readyToOpen { ready0 with par := { par0 with maxLen := 1 } } ∧
      [true, true].length = [0x12, 0x34].length ∧ [0x12, 0x34].length ≤ 1 + 1 ∧ 1 + 1 < [0, 0, 0].length ∧
      [true].length ≠ [0x12, 0x34].length ∧
      (midway (.send 0) ready0).selCfg = true ∧ (midway (.send 0) ready0).busy = true :=
  ⟨⟨rfl, rfl⟩, by decide⟩

/-- A step that stores: the data frame of a write transaction in the reference environment. -/
def storing : State :=
  { midway (.send 1) (refState []) with dev := { Device.atReset with phase := .data, ptr := 0x23 } }

/-- At the last position, for each of the three outcomes. -/
theorem witness_SendStepFollowsItsRow :
    waitsForBus (scripted [sendOk] [] (midway (.send 1) ready0)) = true ∧
      interruptTaken (deviceMove (scripted [sendOk] [] (midway (.send 1) ready0))) = false ∧
      (midway (.send 1) ready0).seq = .send 1 ∧ (midway (.send 1) ready0).out[1]? = some 0x34 ∧
      shownFlags (deviceMove (scripted [sendOk] [] (midway (.send 1) ready0))) = some sendOk ∧
      frameTaken (scripted [sendOk] [] (midway (.send 1) ready0)) = true ∧
      classifySend sendOk = .ready () ∧ classifySend none5 = .notYetReady ∧
      classifySend (snap true false false true true) = .fault .overrun := by decide

/-- The clauses about the reference device: a frame that is stored, and one that is not taken. -/
theorem witness_SendStepFollowsItsRow_reference :
    waitsForBus storing = true ∧ interruptTaken (deviceMove storing) = false ∧ storing.seq = .send 1 ∧
      storing.out[1]? = some 0x34 ∧ (shownFlags (deviceMove storing)).map classifySend = some (.ready ()) ∧
      frameTaken storing = true ∧ frameTaken { storing with dev := { storing.dev with phase := .exhausted } } = false := by
  decide

theorem witness_ReceiveStepFollowsItsRow :
    waitsForBus (scripted [recvOk] [0xCD] (midway (.recv 1) ready0)) = true ∧
      interruptTaken (deviceMove (scripted [recvOk] [0xCD] (midway (.recv 1) ready0))) = false ∧
      (midway (.recv 1) ready0).seq = .recv 1 ∧ (midway (.recv 1) ready0).keep[1]? = some true ∧
      shownFlags (deviceMove (scripted [recvOk] [0xCD] (midway (.recv 1) ready0))) = some recvOk ∧
      shownByte (deviceMove (scripted [recvOk] [0xCD] (midway (.recv 1) ready0))) = some 0xCD ∧
      classifyReceive recvOk = .ready () ∧ classifyReceive none5 = .notYetReady ∧
      classifyReceive (snap false false true false true) = .fault .checksumError := by decide

theorem witness_CloseStepDeassertsAndReturns :
    waitsForBus (midway (.close 2) ready0) = true ∧ interruptTaken (deviceMove (midway (.close 2) ready0)) = false ∧
      (midway (.close 2) ready0).selCfg = true ∧ (midway (.close 2) ready0).seq = .close 2 := by decide

/-- The clause about the buffer of a READ that succeeded. -/
theorem witness_CloseStepDeassertsAndReturns_read :
    waitsForBus { midway (.close 2) ready0 with caller := .read 2, inb := [0xAB, 0xCD] } = true ∧
      (midway (.close 2) ready0).res = none ∧ (midway (.close 2) ready0).caller = .exchange ∧
      (answered (step { midway (.close 2) ready0 with caller := .read 2, inb := [0xAB, 0xCD] })).map
        (fun t => (t.host.ordinary.result, t.host.ordinary.buffer)) =
          some (some (.read (.ok [0xAB, 0xCD])), [0xAB, 0xCD]) := by decide

/-- A fault seen by the send of the first byte, a READ waiting. -/
theorem witness_FaultClosesTheTransaction_send :
    waitsForBus { scripted [snap true false false true true] [] (midway (.send 0) ready0) with caller := .read 1 } = true ∧
      (midway (.send 0) ready0).host.irqOn = false ∧ (midway (.send 0) ready0).selCfg = true ∧
      0 < (midway (.send 0) ready0).out.length ∧ 0 < (midway (.send 0) ready0).keep.length ∧
      shownFlags (deviceMove
        { scripted [snap true false false true true] [] (midway (.send 0) ready0) with caller := .read 1 }) =
          some (snap true false false true true) ∧
      (midway (.send 0) ready0).seq = .send 0 ∧
      classifySend (snap true false false true true) = .fault .overrun := by decide

theorem witness_FaultClosesTheTransaction :
    waitsForBus (scripted [snap false true false false true] [] (midway (.recv 1) ready0)) = true ∧
      (midway (.recv 1) ready0).host.irqOn = false ∧ (midway (.recv 1) ready0).selCfg = true ∧
      (midway (.recv 1) ready0).caller = .exchange ∧ 1 < (midway (.recv 1) ready0).out.length ∧
      1 < (midway (.recv 1) ready0).keep.length ∧
      shownFlags (deviceMove (scripted [snap false true false false true] [] (midway (.recv 1) ready0))) =
        some (snap false true false false true) ∧
      (midway (.recv 1) ready0).seq = .recv 1 ∧
      classifyReceive (snap false true false false true) = .fault .modeFault := by decide

theorem witness_RetryHasNoBound :
    (scripted [none5, recvOk, none5] [] (midway (.send 0) ready0)).env = .scripted ∧
      waitsForBus (scripted [none5, recvOk, none5] [] (midway (.send 0) ready0)) = true ∧
      (midway (.send 0) ready0).host.irqOn = false ∧
      (scripted [none5, recvOk, none5] [] (midway (.send 0) ready0)).script.snapshots = [none5, recvOk] ++ [none5] ∧
      0 < (midway (.send 0) ready0).out.length ∧ 0 < (midway (.send 0) ready0).keep.length ∧
      (midway (.send 0) ready0).seq = .send 0 ∧ (∀ f ∈ [none5, recvOk], classifySend f = .notYetReady) := by decide

/-- X1 of section 2.3, its calls in their order. -/
theorem witness_ExchangeStepsRefineBigStep :
    readyToOpen (scripted [sendOk, recvOk, sendOk, snap false false false true true] [0xAB, 0xCD] ready0) ∧
      ready0.env = .scripted ∧ ready0.host.irqOn = false ∧ [true, true].length = [0x12, 0x34].length ∧
      [0x12, 0x34].length ≤ ready0.par.maxLen + 1 ∧
      bigExchange [0x12, 0x34] [true, true]
          ⟨[sendOk, recvOk, sendOk, snap false false false true true], [0xAB, 0xCD]⟩ =
        some ([.selectAssert, .statusRead sendOk, .dataWrite 0x12, .statusRead recvOk, .dataRead 0xAB,
          .statusRead sendOk, .dataWrite 0x34, .statusRead (snap false false false true true), .dataRead 0xCD,
          .selectDeassert], .ok [0xAB, 0xCD], ⟨[], []⟩) :=
  ⟨⟨rfl, rfl⟩, by decide⟩

/-- The edges of an admitted access: the last location, the whole space, the last start of two. -/
theorem witness_WriteOpensItsTransaction :
    readyToOpen ready0 ∧ accessAdmitted ready0.par.maxLen 0x3F [(0xFF : Byte)].length ∧
      accessAdmitted ready0.par.maxLen 0x3E [(0x01 : Byte), 0x02].length :=
  ⟨⟨rfl, rfl⟩, by unfold accessAdmitted; decide⟩

theorem witness_ReadOpensItsTransaction :
    readyToOpen ready0 ∧ accessAdmitted ready0.par.maxLen 0x3F 1 ∧ accessAdmitted ready0.par.maxLen 0x00 64 :=
  ⟨⟨rfl, rfl⟩, by unfold accessAdmitted; decide⟩

theorem witness_WireFormsOpenTheirFrames :
    readyToOpen ready0 ∧ accessAdmitted ready0.par.maxLen (0x3F : RegAddr).toNat 1 ∧
      2 ≤ [(0x01 : Byte), 0x02].length ∧ accessAdmitted ready0.par.maxLen (0x3E : RegAddr).toNat [(0x01 : Byte), 0x02].length ∧
      accessAdmitted ready0.par.maxLen (0x00 : RegAddr).toNat 64 ∧ [(0x0F : Byte)].length < 2 :=
  ⟨⟨rfl, rfl⟩, by unfold accessAdmitted; decide⟩

theorem witness_RegisterAccessIsItsWireForm : 2 ≤ [(0x0F : Byte), 0x00].length ∧ 2 ≤ 64 := by decide

/-- Each row of R92 at the edge where it begins. -/
theorem witness_AccessRefusals :
    [(0 : Byte)].length = 1 ∧ 0x3F < 0x40 ∧ ([] : List Byte).length = 0 ∧
      (List.replicate 65 (0 : Byte)).length = 65 ∧ ready0.par.maxLen < 65 ∧
      [(0 : Byte), 0].length = 2 ∧ 2 ≤ ready0.par.maxLen ∧ 0x3F < 0x3F + 2 - 1 := by decide

theorem witness_FailedReadLeavesFreeSlots :
    waitsForBus { midway (.close 1) ready0 with caller := .read 1, res := some .modeFault } = true ∧
      interruptTaken (deviceMove { midway (.close 1) ready0 with caller := .read 1, res := some .modeFault }) = false ∧
      (midway (.close 1) ready0).selCfg = true ∧ (midway (.close 1) ready0).seq = .close 1 := by decide

/-- P2 of section 3. -/
theorem witness_WriteThenReadRoundTrip :
    readyToOpen (asking [.op (.write 0x20 [0x0F, 0x00]), .op (.read 0x20 2)] (refState [(0x20, 0xAA), (0x21, 0xBB)])) ∧
      (refState [(0x20, 0xAA), (0x21, 0xBB)]).env = .reference ∧
      (refState [(0x20, 0xAA), (0x21, 0xBB)]).per.rxFull = false ∧
      (refState [(0x20, 0xAA), (0x21, 0xBB)]).per.ovr = false ∧
      (refState [(0x20, 0xAA), (0x21, 0xBB)]).host.irqOn = false ∧
      (refState [(0x20, 0xAA), (0x21, 0xBB)]).host.context = .ordinary ∧
      (asking [.op (.write 0x20 [0x0F, 0x00]), .op (.read 0x20 2)]
        (refState [(0x20, 0xAA), (0x21, 0xBB)])).host.ordinary.call = none ∧
      (asking [.op (.write 0x20 [0x0F, 0x00]), .op (.read 0x20 2)]
        (refState [(0x20, 0xAA), (0x21, 0xBB)])).host.ordinary.todo =
          [.op (.write 0x20 [0x0F, 0x00]), .op (.read 0x20 [(0x0F : Byte), 0x00].length)] ∧
      accessAdmitted (refState [(0x20, 0xAA), (0x21, 0xBB)]).par.maxLen 0x20 [(0x0F : Byte), 0x00].length :=
  ⟨⟨rfl, rfl⟩, rfl, rfl, rfl, rfl, rfl, rfl, rfl, by unfold accessAdmitted; decide⟩

theorem witness_StepStoresOnlyAtThePointer :
    storeTarget storing = some 0x23 ∧ (answered (step storing)).map (fun t => t.dev.regs) = some [(0x23, 0x34)] := by decide

theorem witness_ReferenceDeviceFrames :
    Device.atReset.phase = .idle ∧ ({ Device.atReset with phase := .data, dir := true, multi := true, ptr := 0x3F } : Device).phase = .data ∧
      ({ Device.atReset with phase := .data, multi := true, ptr := 0x3E } : Device).ptr ≠ 0x3F ∧
      storing.env = .reference ∧ (answered (step storing)).isSome = true := by decide

theorem witness_ReferenceDelaysCountDown :
    ({ Peripheral.atReset with rxFull := true, waitRx := 2 } : Peripheral).rxFull = true ∧ Peripheral.atReset.rxFull = false ∧
      storing.env = .reference ∧ (answered (dataWrite 0x34 storing)).isSome = true ∧
      (answered (statusRead { storing with per := { storing.per with waitTx := 2 } })).map
        (fun t => (t.per.waitTx, t.per.flags.txReady)) = some (1, false) := by
  decide

theorem witness_UnreadByteRaisesOverrun :
    storing.env = .reference ∧ frameTaken storing = true ∧
      frameTaken { storing with per := { storing.per with rxFull := true } } = true ∧
      (answered (step { storing with per := { storing.per with ovr := true } })).map (fun t => (t.seq, t.per.ovr)) =
        some (.close 1, true) := by decide

/-- A data frame to the primary control register, in the scripted environment. -/
def poweringOn : State :=
  { scripted [sendOk] [] (midway (.send 1) ready0) with dev := { Device.atReset with phase := .data, ptr := 0x20 } }

/-- The clauses about a step that hands a byte over, outside the reference environment too, and one that hands none over. -/
theorem witness_StepStoresOnlyAtThePointer_scripted :
    storeTarget poweringOn = some 0x20 ∧
      (answered (step poweringOn)).map (fun t => (t.dev.regs, t.calls)) =
        some ([(0x20, 0x34)], poweringOn.calls ++ [.statusRead sendOk, .dataWrite 0x34]) ∧
      (answered (step ready0)).map (fun t => t.calls) = some ready0.calls := by decide

/-- The byte of initialisation step 3, about to be sent to the interrupt-control register. -/
def enabling : State :=
  { poweringOn with
    out := [0x22, (Config.encInterrupt ⟨0, 0, true, .dps250⟩).1]
    dev := { Device.atReset with phase := .data, ptr := 0x22 } }

/-- The clauses about a step: the elements turned on, the interrupt enabled, and a step while neither is so. -/
theorem witness_SensorSideEffects_step :
    poweringOn.dev.powered = false ∧ (answered (step poweringOn)).map (fun t => t.dev.powered) = some true ∧
      enabling.dev.drdyEnabled = false ∧ (answered (step enabling)).map (fun t => t.dev.drdyEnabled) = some true ∧
      ready0.dev.powered = false ∧ ready0.dev.dataReady = false ∧ (answered (step ready0)).isSome = true :=
  ⟨rfl, by decide, rfl,
    congrArg some (enablesDataReady_encInterrupt (cfg := ⟨0, 0, true, .dps250⟩) rfl), by decide⟩

/-- The clause about a step that clears the pending condition: the last of the six measurement bytes read. -/
theorem witness_SensorSideEffects_clear :
    (answered (step { poweringOn with
      dev := { Device.atReset with phase := .data, dir := true, ptr := 0x2D, first := 0x28, dataReady := true } })).map
        (fun t => t.dev.dataReady) = some false := by decide

theorem witness_SensorSideEffects :
    ({ Device.atReset with phase := .data, ptr := 0x20 } : Device).ptr = par0.aCtrlPrimary ∧
      ({ Device.atReset with phase := .data, dir := true, ptr := 0x2D, first := 0x28 } : Device).ptr.toNat =
        par0.aAxis0Low.toNat + 5 ∧
      ({ Device.atReset with phase := .data, dir := true, ptr := 0x2D, first := 0x28 } : Device).first.toNat ≤
        par0.aAxis0Low.toNat ∧
      isMeasurement par0 0x27 = false ∧ isMeasurement par0 0x2E = false ∧
      ({ Device.atReset with phase := .data, ptr := 0x22 } : Device).ptr = par0.aCtrlInterrupt ∧
      ready0.env ≠ .reference ∧ ({ Device.atReset with phase := .awaitCmd } : Device).phase = .awaitCmd ∧
      ({ Device.atReset with phase := .data, multi := true, ptr := 0x3E } : Device).ptr ≠ 0x3F ∧
      ({ Device.atReset with phase := .data, multi := true, ptr := 0x3F } : Device).ptr = 0x3F := by decide

/-- A coherent, framed state in the middle of a transaction, from which a step goes on. -/
theorem witness_StepKeepsCoherence : Coherent (scripted [sendOk] [] (midway (.send 0) ready0)) :=
  { busyInFlight := by decide
    outLength := rfl
    keepLength := rfl
    inRange := by show 0 < 2; decide
    configured := fun _ => rfl
    collected := ⟨rfl, rfl⟩
    readMask := trivial
    bounded := by decide
    parameters := by decide
    memory := rfl }

theorem witness_StepKeepsCoherence_step :
    (answered (step (scripted [sendOk] [] (midway (.send 0) ready0)))).isSome = true := by decide

theorem witness_StepKeepsSelectFraming :
    framedHost (scripted [sendOk] [] (midway (.send 0) ready0)).host = true ∧
      SelectFramed (scripted [sendOk] [] (midway (.send 0) ready0)) :=
  ⟨rfl, fun _ => by decide⟩

theorem witness_UnconfiguredLineRefusesFraming :
    State.reset.selCfg = false ∧ State.reset.busy = false ∧
      (Instr.read 0x3F 1).wellFormed State.reset.par.maxLen = true ∧
      (Instr.attemptSend 0).wellFormed State.reset.par.maxLen = true ∧ State.reset.env = .oracle := by decide

theorem witness_NothingNestsInATransaction :
    (midway (.recv 0) ready0).selCfg = true ∧ (midway (.recv 0) ready0).busy = true ∧
      (Instr.read 0x28 6).wellFormed (midway (.recv 0) ready0).par.maxLen = true := by decide

theorem witness_StepKeepsParameters : (answered (step (midway (.close 2) ready0))).isSome = true := by decide

/-- Steps that make no primitive, one select primitive, and an attempt. -/
theorem witness_StepMakesOnePrimitive :
    (answered (step ready0)).map (fun t => t.calls) = some [] ∧
      (answered (step (midway (.close 2) ready0))).map (fun t => t.calls) = some [.selectDeassert] ∧
      (answered (step (scripted [none5] [] (midway (.send 0) ready0)))).map (fun t => t.calls) =
        some [.statusRead none5] := by decide

theorem witness_OperandsStayLatched :
    (scripted [sendOk] [] (midway (.send 0) ready0)).busy = true ∧
      (answered (step (scripted [sendOk] [] (midway (.send 0) ready0)))).isSome = true := by decide

theorem witness_TransactionEndsOnlyByClose :
    (midway (.close 2) ready0).busy = true ∧
      (answered (step (midway (.close 2) ready0))).map (fun t => t.busy) = some false := by decide

theorem witness_IdleBlockStaysIdle : runEnded ready0 ∧ interruptTaken (deviceMove ready0) = false :=
  ⟨⟨rfl, rfl, rfl, rfl, rfl, rfl⟩, rfl⟩

/-- An interrupt waits, with a request for its handler. -/
def interrupted : State :=
  { midway (.recv 0) ready0 with
    host := { HostState.atReset with irq := true, irqOn := true, isr := [.op (.read 0x28 6)] } }

theorem witness_HandlerPreemptsBetweenSteps : interruptTaken (deviceMove interrupted) = true := by decide

/-- The handler at its end, and with a request left. -/
def handling (rs : List Request) : State :=
  { ready0 with host := { HostState.atReset with context := .handler, handler := { Thread.empty with todo := rs } } }

theorem witness_HandlerRunsToItsEnd :
    (handling []).host.context = .handler ∧ waitsForBus (handling []) = false ∧ (handling []).host.handler.todo = [] ∧
      (handling []).host.handler.call = none ∧ (answered (step (handling []))).map (fun t => t.host.context) = some .ordinary ∧
      (answered (step (handling [.op (.read 0x28 6)]))).map (fun t => t.host.context) = some .handler := by decide

/-- The clause about a transaction of the ordinary context in flight. -/
theorem witness_HandlerRunsToItsEnd_bus :
    (midway (.recv 0) (handling [])).host.context = .handler ∧ (midway (.recv 0) (handling [])).busy = true ∧
      (midway (.recv 0) (handling [])).owner = .ordinary ∧
      (answered (step (midway (.recv 0) (handling [])))).map (fun t => (t.host.context, t.seq)) =
        some (.ordinary, .recv 0) := by decide

/-- The clause about a step on which no condition sets, and the one about the host's mask. -/
theorem witness_PendingConditionRaisesNoSecondInterrupt_mask :
    ready0.dev.dataReady = false ∧ (answered (step ready0)).map (fun t => (t.host.irq, t.host.context)) = some (false, .ordinary) ∧
      waitsForBus (asking [.setInterrupt true] ready0) = false ∧
      interruptTaken (deviceMove (asking [.setInterrupt true] ready0)) = false ∧
      ((asking [.setInterrupt true] ready0).thread .ordinary).call = none ∧
      ((asking [.setInterrupt true] ready0).thread .ordinary).todo = [.setInterrupt true] ∧
      (answered (step (asking [.setInterrupt true] ready0))).map (fun t => t.host.irqOn) = some true := by decide

theorem witness_PendingConditionRaisesNoSecondInterrupt :
    ({ ready0 with dev := { Device.atReset with dataReady := true }, host := { HostState.atReset with irq := true } } :
        State).dev.dataReady = true ∧
      (answered (step
        { ready0 with
          dev := { Device.atReset with dataReady := true }
          host := { HostState.atReset with irq := true } })).map (fun t => t.host.irq) = some true := by decide

def cfg0 : DeviceConfig := { dataRate := 0, cutoff := 0, interruptEnabled := true, scale := .dps250 }

theorem witness_InitializeConfiguresTheLine :
    (asking [.call (.initDevice cfg0)] State.reset).busy = false ∧
      ((asking [.call (.initDevice cfg0)] State.reset).thread .ordinary).call = none ∧
      ((asking [.call (.initDevice cfg0)] State.reset).thread .ordinary).todo = [.call (.initDevice cfg0)] ∧
      interruptTaken (deviceMove (asking [.call (.initDevice cfg0)] State.reset)) = false := by decide

/-- The handler asks for initialize while the ordinary context's transaction is in flight. -/
theorem witness_InitializeConfiguresTheLine_busy :
    (midway (.recv 0) (handling [.call (.initDevice cfg0)])).busy = true ∧
      waitsForBus (midway (.recv 0) (handling [.call (.initDevice cfg0)])) = false ∧
      ((midway (.recv 0) (handling [.call (.initDevice cfg0)])).thread .handler).call = none ∧
      ((midway (.recv 0) (handling [.call (.initDevice cfg0)])).thread .handler).todo = [.call (.initDevice cfg0)] ∧
      interruptTaken (deviceMove (midway (.recv 0) (handling [.call (.initDevice cfg0)]))) = false := by decide

/-- P5, variant (c). -/
theorem witness_IdentityMismatchWritesNothing :
    waitsForBus (calling (.initIdentity cfg0) (some (.read (.ok [0x00]))) ready0) = false ∧
      interruptTaken (deviceMove (calling (.initIdentity cfg0) (some (.read (.ok [0x00]))) ready0)) = false ∧
      ((calling (.initIdentity cfg0) (some (.read (.ok [0x00]))) ready0).thread .ordinary).call =
        some (.initIdentity cfg0) ∧
      ((calling (.initIdentity cfg0) (some (.read (.ok [0x00]))) ready0).thread .ordinary).result =
        some (.read (.ok [0x00])) ∧
      (0x00 : Byte) ≠ ready0.par.deviceId := by decide

theorem witness_InitializeStagesAdvance :
    waitsForBus (calling (.initStart cfg0) none ready0) = false ∧
      interruptTaken (deviceMove (calling (.initStart cfg0) none ready0)) = false ∧
      ((calling (.initStart cfg0) none ready0).thread .ordinary).call = some (.initStart cfg0) ∧
      initConfig (.initStart cfg0) = some cfg0 ∧
      (answered (step (calling (.initStart cfg0) none ready0))).map (fun t => t.out) = some [0x8F, 0x00] := by decide

/-- The clauses about an answer: a next stage that is admitted, and two ends. The payload of a write is open (R107), so whether
its access is admitted is too. -/
theorem witness_InitializeStagesAdvance_answers :
    initSuccessor ready0.par (.initStart cfg0) none = some (.inl (.initIdentity cfg0)) ∧ readyToOpen ready0 ∧
      accessAdmitted ready0.par.maxLen (stageAccess ready0.par (.initIdentity cfg0)).1
        (stageAccess ready0.par (.initIdentity cfg0)).2 ∧
      initSuccessor ready0.par (.initIdentity cfg0) (some (.read (.ok [0x00]))) = some (.inr .identityMismatch) ∧
      initSuccessor ready0.par (.initIdentity cfg0) (some (.read (.ok [0xD4]))) = some (.inl (.initInterrupt cfg0)) ∧
      initSuccessor ready0.par (.initInterrupt cfg0) (some (.write (.ok ()))) = some (.inl (.initRange cfg0)) ∧
      initSuccessor ready0.par (.initPrimary cfg0) (some (.write (.ok ()))) = some (.inr .ok) :=
  ⟨rfl, ⟨rfl, rfl⟩, by unfold accessAdmitted; decide, by decide⟩

/-- P5, variant (d), and a fault in the identity read. -/
theorem witness_InitializeFaultAborts :
    waitsForBus (calling (.initRange cfg0) (some (.write (.err .overrun))) ready0) = false ∧
      interruptTaken (deviceMove (calling (.initRange cfg0) (some (.write (.err .overrun))) ready0)) = false ∧
      initConfig (.initRange cfg0) = some cfg0 ∧ 2 ≤ initRank (.initRange cfg0) ∧
      ((calling (.initRange cfg0) (some (.write (.err .overrun))) ready0).thread .ordinary).result =
        some (.write (.err .overrun)) ∧
      initRank (.initIdentity cfg0) = 1 ∧
      ((calling (.initIdentity cfg0) (some (.read (.err .overrun))) ready0).thread .ordinary).result =
        some (.read (.err .overrun)) := by decide

theorem witness_InitializeEndsReady :
    waitsForBus (calling (.initPrimary cfg0) (some (.write (.ok ()))) ready0) = false ∧
      interruptTaken (deviceMove (calling (.initPrimary cfg0) (some (.write (.ok ()))) ready0)) = false ∧
      ((calling (.initPrimary cfg0) (some (.write (.ok ()))) ready0).thread .ordinary).call =
        some (.initPrimary cfg0) ∧
      ((calling (.initPrimary cfg0) (some (.write (.ok ()))) ready0).thread .ordinary).result =
        some (.write (.ok ())) ∧
      (calling (.initPrimary cfg0) (some (.write (.ok ()))) ready0).host.ctl = .uninitialized ∧
      (answered (step (calling (.initPrimary cfg0) (some (.write (.ok ()))) ready0))).map (fun t => t.host.ctl) =
        some .ready := by decide

/-- The controller is Ready. -/
def controlled (s : State) : State := { s with host := { s.host with ctl := .ready } }

/-- The clauses about a Ready controller. -/
theorem witness_ReadsNeedAReadyController_ready :
    waitsForBus (controlled (asking [.call .readStatus] ready0)) = false ∧
      interruptTaken (deviceMove (controlled (asking [.call .readStatus] ready0))) = false ∧
      ((controlled (asking [.call .readStatus] ready0)).thread .ordinary).todo = [.call .readStatus] ∧
      ((controlled (asking [.call (.readMeasurement .dps250)] ready0)).thread .ordinary).todo =
        [.call (.readMeasurement .dps250)] ∧
      readyToOpen (controlled ready0) ∧ accessAdmitted ready0.par.maxLen ready0.par.aStatus.toNat 1 ∧
      accessAdmitted ready0.par.maxLen ready0.par.aAxis0Low.toNat 6 :=
  ⟨rfl, rfl, rfl, rfl, ⟨rfl, rfl⟩, by unfold accessAdmitted; decide, by unfold accessAdmitted; decide⟩

theorem witness_ReadsNeedAReadyController :
    (asking [.call .readStatus] ready0).host.ctl = .uninitialized ∧ waitsForBus (asking [.call .readStatus] ready0) = false ∧
      interruptTaken (deviceMove (asking [.call .readStatus] ready0)) = false ∧
      ((asking [.call .readStatus] ready0).thread .ordinary).call = none ∧
      ((asking [.call .readStatus] ready0).thread .ordinary).todo = [.call .readStatus] := by decide

theorem witness_ControllerReadsDecode :
    waitsForBus (calling .status (some (.read (.ok [0x91]))) ready0) = false ∧
      interruptTaken (deviceMove (calling .status (some (.read (.ok [0x91]))) ready0)) = false ∧
      ((calling .status (some (.read (.ok [0x91]))) ready0).thread .ordinary).call = some .status ∧
      ((calling .status (some (.read (.ok [0x91]))) ready0).thread .ordinary).result = some (.read (.ok [0x91])) := by decide

theorem witness_ScaledCountIsOdd :
    ((0x39202279 : Single).extractLsb' 23 8).toNat ≠ 255 ∧ (0x39202279 : Single).getLsbD 31 = false ∧ (-32768 : Int) ≠ 0 ∧
      ((0x39202279 : Single).extractLsb' 23 8).toNat ≠ 0 ∧ ((0x39202279 : Single).extractLsb' 23 8).toNat ≤ 238 := by
  decide

end Sys2Proof.Tests
end

/-! ## Coherence, and what a step runs -/

namespace Sys2Proof.Machine

/-! ### The parameters (R10, R34) -/

/-- MAX_LEN and DUMMY can be any values R10 admits: the rest of what it asks is about the addresses. -/
theorem wellFormed_withMaxLen {p : Params} (h : p.wellFormed = true) {m : Nat} (hm : 1 ≤ m) (b : Byte) :
    { p with maxLen := m, dummy := b }.wellFormed = true := by
  simp only [Params.wellFormed, Bool.and_eq_true, decide_eq_true_eq] at h ⊢
  obtain ⟨⟨-, hnodup⟩, haxes⟩ := h
  exact ⟨⟨hm, hnodup⟩, haxes⟩

theorem fallback_wellFormed : Params.fallback.wellFormed = true := by decide

theorem atReset_wellFormed : Params.atReset.wellFormed = true := by
  unfold Params.atReset
  split
  · next h => exact wellFormed_withMaxLen h (by decide) _
  · exact wellFormed_withMaxLen fallback_wellFormed (by decide) _

/-! ### Coherence along the shared operations -/

/-- What coherence is about is the same: the transaction in flight and the parameters; a configured line stays configured and
the device registers keep their canonical form. -/
structure TransactionKept (s t : State) : Prop where
  busy : t.busy = s.busy
  seq : t.seq = s.seq
  res : t.res = s.res
  n : t.n = s.n
  out : t.out = s.out
  keep : t.keep = s.keep
  inb : t.inb = s.inb
  caller : t.caller = s.caller
  par : t.par = s.par
  configured : s.selCfg = true → t.selCfg = true
  memory : s.dev.regs.wf = true → t.dev.regs.wf = true

theorem TransactionKept.coherent {s t : State} (h : TransactionKept s t) (hc : Coherent s) : Coherent t where
  busyInFlight := by rw [h.busy, h.seq]; exact hc.busyInFlight
  outLength := by rw [h.out, h.n]; exact hc.outLength
  keepLength := by rw [h.keep, h.n]; exact hc.keepLength
  inRange := by unfold SeqInRange; rw [h.seq, h.n]; exact hc.inRange
  configured := fun hq => h.configured (hc.configured (h.seq ▸ hq))
  collected := by unfold CollectedSoFar; rw [h.seq, h.inb, h.keep, h.res, h.n]; exact hc.collected
  readMask := by unfold ReadMaskFits; rw [h.caller, h.seq, h.keep]; exact hc.readMask
  bounded := by rw [h.n, h.par]; exact hc.bounded
  parameters := by rw [h.par]; exact hc.parameters
  memory := h.memory hc.memory

theorem SameTransactor.transactionKept {s t : State} (h : SameTransactor s t) (hp : t.par = s.par)
    (hm : s.dev.regs.wf = true → t.dev.regs.wf = true) : TransactionKept s t :=
  ⟨h.busy, h.seq, h.res, h.n, h.out, h.keep, h.inb, h.caller, hp, fun hs => h.selCfg.trans hs, hm⟩

theorem BusOnly.coherent {s t : State} (h : BusOnly s t) : Coherent s → Coherent t :=
  (h.transactor.transactionKept h.par h.memory).coherent

theorem HostOnly.coherent {s t : State} (h : HostOnly s t) : Coherent s → Coherent t :=
  (h.transactor.transactionKept h.par fun hm => h.dev ▸ hm).coherent

theorem Returned.coherent {s t : State} (h : Returned s t) : Coherent s → Coherent t :=
  (h.transactor.transactionKept h.par fun hm => h.dev ▸ hm).coherent

theorem DeviceMoved.coherent {s t : State} (h : DeviceMoved s t) : Coherent s → Coherent t :=
  (h.transactor.transactionKept h.par fun hm => h.regs ▸ hm).coherent

theorem Coherent.driveAsserted {s : State} : Coherent s → Coherent (driveAsserted s) :=
  TransactionKept.coherent ⟨rfl, rfl, rfl, rfl, rfl, rfl, rfl, rfl, rfl, id, id⟩

theorem Coherent.driveDeasserted {s : State} : Coherent s → Coherent (driveDeasserted s) :=
  TransactionKept.coherent ⟨rfl, rfl, rfl, rfl, rfl, rfl, rfl, rfl, rfl, id, id⟩

theorem Coherent.configureSelect {s : State} : Coherent s → Coherent (configureSelect s) :=
  TransactionKept.coherent ⟨rfl, rfl, rfl, rfl, rfl, rfl, rfl, rfl, rfl, fun _ => rfl, id⟩

/-- The block idle again: nothing in flight is left to be coherent about (R77). -/
theorem Coherent.release {s : State} (h : Coherent s) : Coherent s.release where
  busyInFlight := by simp
  outLength := h.outLength
  keepLength := h.keepLength
  inRange := trivial
  configured := fun hq => absurd rfl hq
  collected := trivial
  readMask := by unfold ReadMaskFits; cases s.release.caller <;> simp
  bounded := h.bounded
  parameters := h.parameters
  memory := h.memory

/-- The state an admitted transaction opens in (R72, R73): nothing collected, at the first position, or at the close when there
is no byte to send. -/
theorem Opened.coherent {c : Caller} {bytes : List Byte} {mask : List Bool} {s t : State}
    (h : Opened c bytes mask s t) (hc : Coherent s) : Coherent t := by
  obtain ⟨⟨hcfg, -⟩, hmask, hbound, rfl, hread⟩ := h
  have hcaller : ReadMaskFits (openedState c bytes mask s) := by
    unfold ReadMaskFits openedState
    cases c with
    | exchange => trivial
    | write => trivial
    | read m => exact fun _ => hread m rfl
  cases bytes with
  | nil =>
    have hnil : mask = [] := List.length_eq_zero_iff.1 hmask
    exact ⟨by simp [openedState], rfl, hmask, Nat.le_refl 0, fun _ => hcfg, fun _ => ⟨rfl, hnil ▸ rfl⟩,
      hcaller, hbound, hc.parameters, hc.memory⟩
  | cons b bs =>
    exact ⟨by simp [openedState], rfl, hmask, Nat.succ_pos _, fun _ => hcfg, ⟨rfl, rfl⟩, hcaller, hbound,
      hc.parameters, hc.memory⟩

/-! ### Coherence along the sequencer (R74 to R80) -/

/-- A coherent transaction in flight stays coherent at another position that fits the bytes collected there. -/
theorem Coherent.reposition {s : State} (h : Coherent s) (hflight : s.seq ≠ .idle) {q : Seq} {r : Option FaultKind}
    {ib : List Byte} (hq : q ≠ .idle) (hrange : SeqInRange { s with seq := q, res := r, inb := ib })
    (hcoll : CollectedSoFar { s with seq := q, res := r, inb := ib }) :
    Coherent { s with seq := q, res := r, inb := ib } where
  busyInFlight := ⟨fun _ => hq, fun _ => h.busyInFlight.2 hflight⟩
  outLength := h.outLength
  keepLength := h.keepLength
  inRange := hrange
  configured := fun _ => h.configured hflight
  collected := hcoll
  readMask := by
    have hread := h.readMask
    unfold ReadMaskFits at hread ⊢
    cases hcaller : s.caller with
    | exchange => trivial
    | write => trivial
    | read m =>
      rw [hcaller] at hread
      exact fun _ => hread hflight
  bounded := h.bounded
  parameters := h.parameters
  memory := h.memory

/-- In the byte loop, before either half of position `i`: the bytes collected are those kept so far, and no fault has been
seen (R16, R76). -/
theorem Coherent.at_position {s : State} {i : Nat} (h : Coherent s) (hq : s.seq = .send i ∨ s.seq = .recv i) :
    i < s.n ∧ s.inb.length = (s.keep.take i).count true ∧ s.res = none := by
  have hrange := h.inRange
  have hcoll := h.collected
  unfold SeqInRange at hrange
  unfold CollectedSoFar at hcoll
  rcases hq with hq | hq <;> rw [hq] at hrange hcoll <;> exact ⟨hrange, hcoll⟩

/-- The byte sent, the transaction waits for the byte received at the same position (R74). -/
theorem Coherent.sent {s : State} {i : Nat} (h : Coherent s) (hq : s.seq = .send i) : Coherent (s.goto (.recv i)) :=
  have ⟨hi, hcoll⟩ := h.at_position (.inl hq)
  h.reposition (r := s.res) (ib := s.inb) (by simp [hq]) (by simp) hi hcoll

/-- A fault inside the transaction leaves the byte loop for the close, which asks nothing of the bytes then (R78). -/
theorem Coherent.aborted {s : State} {i : Nat} (h : Coherent s) (hq : s.seq = .send i ∨ s.seq = .recv i)
    (k : FaultKind) : Coherent (abortTransaction k i s) :=
  h.reposition (ib := s.inb) (by rcases hq with hq | hq <;> simp [hq]) (by simp) (h.at_position hq).1.le
    (fun hnone => by cases hnone)

/-- Collecting the byte of position `i` is counting its keep bit (R76). -/
theorem length_collect_inb {s : State} {kept : Bool} {i : Nat} (v : Byte) (hkept : s.keep[i]? = some kept)
    (hlen : s.inb.length = (s.keep.take i).count true) :
    (collect kept v i s).inb.length = (s.keep.take (i + 1)).count true := by
  rw [List.take_add_one, hkept, List.count_append, ← hlen]
  cases kept <;> simp [collect]

/-- The byte received, the transaction goes on to the next position, or to the close after the last one (R75, R76). -/
theorem Coherent.received {s : State} {i : Nat} {kept : Bool} (h : Coherent s) (hq : s.seq = .recv i)
    (hkept : s.keep[i]? = some kept) (v : Byte) : Coherent (collect kept v i s) := by
  obtain ⟨hi, hlen, hres⟩ := h.at_position (.inr hq)
  have hinb := length_collect_inb v hkept hlen
  have hflight : s.seq ≠ .idle := by simp [hq]
  unfold collect at hinb ⊢
  by_cases hlast : i + 1 < s.n
  · rw [if_pos hlast] at hinb ⊢
    exact h.reposition (r := s.res) hflight (by simp) hlast ⟨hinb, hres⟩
  · rw [if_neg hlast] at hinb ⊢
    have hall : s.keep.take (i + 1) = s.keep := List.take_of_length_le (by have := h.keepLength; omega)
    exact h.reposition (r := s.res) hflight (by simp) (Nat.le_refl s.n) (fun _ => ⟨rfl, hall ▸ hinb⟩)

theorem sequencerStep_coherent {s t : State} (hc : Coherent s) (h : sequencerStep s = .next t) : Coherent t := by
  rcases sequencerStep_next h with ⟨i, b, o, u, hq, -, hsend, hrow⟩ | ⟨i, kept, o, u, hq, hkept, hrecv, hrow⟩ | ⟨i, -, hclose⟩
  · have hbus := attemptSend_busOnly hsend
    have hu : Coherent u := hbus.coherent hc
    have huq : u.seq = .send i := hbus.transactor.seq.trans hq
    rcases hrow with ⟨-, rfl⟩ | ⟨-, rfl⟩ | ⟨k, -, rfl⟩
    · exact hu
    · exact hu.sent huq
    · exact hu.aborted (.inl huq) k
  · have hbus := attemptReceive_busOnly hrecv
    have hu : Coherent u := hbus.coherent hc
    have huq : u.seq = .recv i := hbus.transactor.seq.trans hq
    rcases hrow with ⟨-, rfl⟩ | ⟨v, -, rfl⟩ | ⟨k, -, rfl⟩
    · exact hu
    · exact hu.received huq (hbus.transactor.keep ▸ hkept) v
    · exact hu.aborted (.inr huq) k
  · obtain ⟨-, rfl⟩ := closeTransaction_next hclose
    exact (returnResult_returned _).coherent hc.driveDeasserted.release

/-! ### Coherence along the host's steps (R12, R135) -/

theorem exec_coherent {i : Instr} {s t : State} (hc : Coherent s) (h : exec i s = .next t) : Coherent t := by
  rcases exec_next h with ⟨c, bytes, mask, hopen⟩ | ⟨-, -, rfl⟩ | ⟨-, -, rfl⟩ | ⟨b, o, u, -, -, hsend, rfl⟩ |
    ⟨o, u, -, -, hrecv, rfl⟩
  · exact hopen.coherent hc
  · exact hc.driveAsserted
  · exact hc.driveDeasserted
  · exact (hostOnly_deliver _ _ _).coherent ((attemptSend_busOnly hsend).coherent hc)
  · exact (hostOnly_deliver _ _ _).coherent ((attemptReceive_busOnly hrecv).coherent hc)

theorem hostStep_coherent {s t : State} (hc : Coherent s) (h : hostStep s = .next t) : Coherent t := by
  rcases hostStep_next h with hhost | ⟨s', u, c, bytes, mask, hpre, -, hopen, hpost⟩ | ⟨s', hpre, -, hpost⟩ |
    ⟨s', i, hpre, -, hexec, -⟩
  · exact hhost.coherent hc
  · exact hpost.coherent (hopen.coherent (hpre.coherent hc))
  · exact hpost.coherent (hpre.coherent hc).configureSelect
  · exact exec_coherent (hpre.coherent hc) hexec

theorem step_coherent {s t : State} (hc : Coherent s) (h : step s = .next t) : Coherent t := by
  have hmoved : Coherent (deviceMove s) := (deviceMove_moved s).coherent hc
  rcases step_next h with ⟨-, rfl⟩ | ⟨-, -, hseq⟩ | ⟨-, -, hhost⟩
  · exact (hostOnly_host _ _).coherent hmoved
  · exact sequencerStep_coherent hmoved hseq
  · exact hostStep_coherent hmoved hhost

/-! ### The request a step makes (R12) -/

/-- A step that neither takes an interrupt nor waits for the bus makes the running context's next request. -/
theorem step_eq_makeRequest {s : State} {r : Request} {rest : List Request}
    (hcall : (s.thread s.host.context).call = none) (htodo : (s.thread s.host.context).todo = r :: rest)
    (hbus : waitsForBus s = false) (hirq : interruptTaken (deviceMove s) = false) :
    step s = makeRequest r ((deviceMove s).popped rest) := by
  have hmoved : (deviceMove s).thread (deviceMove s).host.context = s.thread s.host.context := by
    rw [deviceMove_thread, (deviceMove_host s).1]
  simp [step, agentStep, hostStep, hmoved, hcall, htodo, hbus, hirq]

theorem runFrames_of_ok {bs : List Byte} {i : Instr} (h : decodeFrames bs = .ok i) (s : State) :
    runFrames bs s = exec i s := by
  simp only [runFrames, h]

theorem runFrames_of_error {bs : List Byte} {e : DecodeError} (h : decodeFrames bs = .error e) (s : State) :
    runFrames bs s = .refused (.badFrames e) := by
  simp only [runFrames, h]

theorem decodeTableWord_eq_some {nbits w : Nat} {i : Instr} :
    decodeTableWord nbits w = some i ↔ decodeFrames (tableFrames nbits w) = .ok i := by
  unfold decodeTableWord
  cases decodeFrames (tableFrames nbits w) <;> simp

theorem interruptTaken_of_masked {s : State} (h : s.host.irqOn = false) : interruptTaken s = false := by
  simp [interruptTaken, h]

theorem withFetchWord_interruptTaken (s : State) (nbits w : Nat) :
    interruptTaken (deviceMove (s.withFetchWord nbits w)) = false := by
  obtain ⟨-, -, -, -, -, hmasked⟩ := deviceMove_host (s.withFetchWord nbits w)
  exact interruptTaken_of_masked hmasked

theorem step_withFetchWord {nbits w : Nat} {i : Instr} (s : State) (h : decodeTableWord nbits w = some i) :
    step (s.withFetchWord nbits w) = exec i ((deviceMove (s.withFetchWord nbits w)).popped []) := by
  rw [step_eq_makeRequest (r := .frames (tableFrames nbits w)) (rest := []) rfl rfl rfl
    (withFetchWord_interruptTaken s nbits w)]
  exact runFrames_of_ok (decodeTableWord_eq_some.1 h) _

/-! ### The obligations -/

/-- Settles O37: each case of `step_next` keeps coherence. -/
theorem stepKeepsCoherence : Obligations.StepKeepsCoherence :=
  fun _ _ hc h => step_coherent hc h

/-- Settles O8: the step makes the request, and the decoder's answer says what becomes of it. -/
theorem stepRunsDecodedFrames : Obligations.StepRunsDecodedFrames := by
  intro s bs rest hcall htodo hbus hirq
  have hstep : step s = runFrames bs ((deviceMove s).popped rest) := step_eq_makeRequest hcall htodo hbus hirq
  exact ⟨fun i hi => hstep.trans (runFrames_of_ok hi _), fun e he => hstep.trans (runFrames_of_error he _)⟩

/-- Settles O9: making a request of an operation is executing it. -/
theorem stepRunsRequestedOperation : Obligations.StepRunsRequestedOperation :=
  fun _ _ _ hcall htodo hbus hirq => step_eq_makeRequest hcall htodo hbus hirq

/-- Settles O10: the placed frames are the next request, and the device's move before it leaves the block ready. -/
theorem placedTableWordRunsNext : Obligations.PlacedTableWordRunsNext := by
  intro s nbits w i h
  have hmoved := deviceMove_moved (s.withFetchWord nbits w)
  have hpopped := hostOnly_popped (deviceMove (s.withFetchWord nbits w)) []
  have htodo : ((deviceMove (s.withFetchWord nbits w)).popped []).host.ordinary.todo = [] := by
    have hctx : (deviceMove (s.withFetchWord nbits w)).host.context = .ordinary := (deviceMove_host _).1
    rw [State.popped, hctx]
    rfl
  exact ⟨_, step_withFetchWord s h,
    ⟨hpopped.transactor.selCfg.trans hmoved.transactor.selCfg, hpopped.transactor.busy.trans hmoved.transactor.busy⟩,
    hpopped.par.trans hmoved.par, (congrArg Device.regs hpopped.dev).trans hmoved.regs, htodo⟩

/-- Settles O36: nothing is in flight at reset, so the one thing to show is that the parameters are well formed. -/
theorem resetIsCoherent : Obligations.ResetIsCoherent where
  busyInFlight := by decide
  outLength := rfl
  keepLength := rfl
  inRange := trivial
  configured := fun hq => absurd rfl hq
  collected := trivial
  readMask := trivial
  bounded := Nat.zero_le _
  parameters := atReset_wellFormed
  memory := rfl

end Sys2Proof.Machine

/-! ## What one step does to the line, the operands and the parameters -/

namespace Sys2Proof.Machine

/-! ### Steps that leave the bus alone -/

/-- The operands latched when a transaction is admitted are the same (R14, R45). -/
structure SameOperands (s t : State) : Prop where
  n : t.n = s.n
  out : t.out = s.out
  keep : t.keep = s.keep
  caller : t.caller = s.caller
  owner : t.owner = s.owner

theorem SameOperands.trans {s t u : State} (h : SameOperands s t) (g : SameOperands t u) : SameOperands s u :=
  ⟨g.n.trans h.n, g.out.trans h.out, g.keep.trans h.keep, g.caller.trans h.caller, g.owner.trans h.owner⟩

theorem SameTransactor.operands {s t : State} (h : SameTransactor s t) : SameOperands s t :=
  ⟨h.n, h.out, h.keep, h.caller, h.owner⟩

/-- No primitive is called and no transaction is admitted or closed; a transaction in flight may move to another position. -/
structure Undisturbed (s t : State) : Prop where
  selCfg : t.selCfg = s.selCfg
  sel : t.sel = s.sel
  busy : t.busy = s.busy
  idle : t.seq = .idle ↔ s.seq = .idle
  operands : SameOperands s t
  env : t.env = s.env
  calls : t.calls = s.calls
  par : t.par = s.par

theorem Undisturbed.trans {s t u : State} (h : Undisturbed s t) (g : Undisturbed t u) : Undisturbed s u :=
  ⟨g.selCfg.trans h.selCfg, g.sel.trans h.sel, g.busy.trans h.busy, g.idle.trans h.idle, h.operands.trans g.operands,
    g.env.trans h.env, g.calls.trans h.calls, g.par.trans h.par⟩

theorem SameTransactor.undisturbed {s t : State} (h : SameTransactor s t) (henv : t.env = s.env)
    (hcalls : t.calls = s.calls) (hpar : t.par = s.par) : Undisturbed s t :=
  ⟨h.selCfg, h.sel, h.busy, by rw [h.seq], h.operands, henv, hcalls, hpar⟩

theorem HostOnly.undisturbed {s t : State} (h : HostOnly s t) : Undisturbed s t :=
  h.transactor.undisturbed h.env h.calls h.par

theorem Returned.undisturbed {s t : State} (h : Returned s t) : Undisturbed s t :=
  h.transactor.undisturbed h.env h.calls h.par

theorem DeviceMoved.undisturbed {s t : State} (h : DeviceMoved s t) : Undisturbed s t :=
  h.transactor.undisturbed h.env h.calls h.par

theorem Undisturbed.refl (s : State) : Undisturbed s s := (HostOnly.refl s).undisturbed

/-- The sequencer going on to another position of the transaction in flight (R74 to R78). -/
theorem undisturbed_reposition {s : State} {q : Seq} (r : Option FaultKind) (ib : List Byte) (hs : s.seq ≠ .idle)
    (hq : q ≠ .idle) : Undisturbed s { s with seq := q, res := r, inb := ib } :=
  ⟨rfl, rfl, rfl, iff_of_false hq hs, ⟨rfl, rfl, rfl, rfl, rfl⟩, rfl, rfl, rfl⟩

theorem undisturbed_goto {s : State} {q : Seq} (hs : s.seq ≠ .idle) (hq : q ≠ .idle) : Undisturbed s (s.goto q) :=
  undisturbed_reposition s.res s.inb hs hq

theorem undisturbed_abortTransaction {s : State} (k : FaultKind) (i : Nat) (hs : s.seq ≠ .idle) :
    Undisturbed s (abortTransaction k i s) :=
  undisturbed_reposition (some k) s.inb hs (by simp)

theorem undisturbed_collect {s : State} (kept : Bool) (v : Byte) (i : Nat) (hs : s.seq ≠ .idle) :
    Undisturbed s (collect kept v i s) :=
  undisturbed_reposition s.res _ hs (by split <;> simp)

/-! ### The attempts, by the calls they make (R66, R68) -/

/-- One attempt: a StatusRead, and a data move only when its snapshot is ready for that move. -/
structure Attempted (s t : State) : Prop where
  bus : BusOnly s t
  calls : (∃ f : Snapshot, t.calls = s.calls ++ [Call.statusRead f]) ∨
    (∃ (f : Snapshot) (b : Byte), t.calls = s.calls ++ [Call.statusRead f, .dataWrite b] ∧ classifySend f = .ready ()) ∨
    (∃ (f : Snapshot) (v : Byte), t.calls = s.calls ++ [Call.statusRead f, .dataRead v] ∧ classifyReceive f = .ready ())

theorem attemptSend_attempted {b : Byte} {s t : State} {o : BusOutcome Unit} (h : attemptSend b s = .next (o, t)) :
    Attempted s t := by
  refine ⟨attemptSend_busOnly h, ?_⟩
  obtain ⟨s1, hread, ho, ⟨hready, hwrite⟩ | ⟨-, rfl⟩⟩ := attemptSend_next h
  · have hcalls : t.calls = s.calls ++ [.statusRead s1.per.flags, .dataWrite b] := by
      rw [(dataWrite_next hwrite).calls, (statusRead_next hread).calls]; simp
    exact .inr (.inl ⟨_, b, hcalls, ho ▸ hready⟩)
  · exact .inl ⟨_, (statusRead_next hread).calls⟩

theorem attemptReceive_attempted {s t : State} {o : BusOutcome Byte} (h : attemptReceive s = .next (o, t)) :
    Attempted s t := by
  refine ⟨attemptReceive_busOnly h, ?_⟩
  obtain ⟨s1, hread, ⟨hready, hmove, -⟩ | ⟨-, -, rfl⟩ | ⟨k, -, -, rfl⟩⟩ := attemptReceive_next h
  · have hcalls : t.calls = s.calls ++ [.statusRead s1.per.flags, .dataRead t.per.rxByte] := by
      rw [(dataRead_next hmove).calls, (statusRead_next hread).calls]; simp
    exact .inr (.inr ⟨_, _, hcalls, hready⟩)
  · exact .inl ⟨_, (statusRead_next hread).calls⟩
  · exact .inl ⟨_, (statusRead_next hread).calls⟩

/-! ### The action of a step (R80) -/

/-- What a step does to the bus when the running context has `reqs` to make: at most one primitive operation, and a select
primitive used directly only when `reqs` asks for it (R167). -/
inductive BusAction (reqs : List Request) (s : State) : State → Prop
  | nothing : BusAction reqs s s
  | attempted {t : State} (attempt : Attempted s t) : BusAction reqs s t
  | opened {c : Caller} {bytes : List Byte} {mask : List Bool} {t : State} (admitted : Opened c bytes mask s t) :
      BusAction reqs s t
  | closed : BusAction reqs s (driveDeasserted s).release
  | configured (notBusy : s.busy = false) : BusAction reqs s (configureSelect s)
  | asserted (asked : .op .selectAssert ∈ reqs) : BusAction reqs s (driveAsserted s)
  | deasserted (asked : .op .selectDeassert ∈ reqs) : BusAction reqs s (driveDeasserted s)

/-- One action, and before and after it only what leaves the bus alone: the device's own move, the host's records, the
sequencer's position. -/
def StepAction (reqs : List Request) (s t : State) : Prop :=
  ∃ s' u, Undisturbed s s' ∧ BusAction reqs s' u ∧ Undisturbed u t

theorem BusAction.stepAction {reqs : List Request} {s t : State} (h : BusAction reqs s t) : StepAction reqs s t :=
  ⟨s, t, .refl s, h, .refl t⟩

theorem Undisturbed.stepAction {reqs : List Request} {s t : State} (h : Undisturbed s t) : StepAction reqs s t :=
  ⟨s, s, .refl s, .nothing, h⟩

theorem StepAction.after {reqs : List Request} {s t u : State} (h : Undisturbed s t) (g : StepAction reqs t u) :
    StepAction reqs s u :=
  let ⟨s', v, hpre, hact, hpost⟩ := g
  ⟨s', v, h.trans hpre, hact, hpost⟩

theorem StepAction.before {reqs : List Request} {s t u : State} (h : StepAction reqs s t) (g : Undisturbed t u) :
    StepAction reqs s u :=
  let ⟨s', v, hpre, hact, hpost⟩ := h
  ⟨s', v, hpre, hact, hpost.trans g⟩

theorem exec_action {i : Instr} {rest : List Request} {s t : State} (h : exec i s = .next t) :
    StepAction (.op i :: rest) s t := by
  rcases exec_next h with ⟨c, bytes, mask, hopen⟩ | ⟨rfl, -, rfl⟩ | ⟨rfl, -, rfl⟩ | ⟨b, o, u, -, -, hsend, rfl⟩ |
    ⟨o, u, -, -, hrecv, rfl⟩
  · exact (BusAction.opened hopen).stepAction
  · exact (BusAction.asserted (by simp)).stepAction
  · exact (BusAction.deasserted (by simp)).stepAction
  · exact (BusAction.attempted (attemptSend_attempted hsend)).stepAction.before (hostOnly_deliver _ _ _).undisturbed
  · exact (BusAction.attempted (attemptReceive_attempted hrecv)).stepAction.before (hostOnly_deliver _ _ _).undisturbed

theorem sequencerStep_action {reqs : List Request} {s t : State} (h : sequencerStep s = .next t) :
    StepAction reqs s t := by
  rcases sequencerStep_next h with ⟨i, b, o, u, hq, -, hsend, hrow⟩ | ⟨i, kept, o, u, hq, -, hrecv, hrow⟩ | ⟨i, -, hclose⟩
  · have hact := attemptSend_attempted hsend
    have hu : u.seq ≠ .idle := by simp [hact.bus.transactor.seq, hq]
    refine (BusAction.attempted hact).stepAction.before ?_
    rcases hrow with ⟨-, rfl⟩ | ⟨-, rfl⟩ | ⟨k, -, rfl⟩
    · exact .refl _
    · exact undisturbed_goto hu (by simp)
    · exact undisturbed_abortTransaction k i hu
  · have hact := attemptReceive_attempted hrecv
    have hu : u.seq ≠ .idle := by simp [hact.bus.transactor.seq, hq]
    refine (BusAction.attempted hact).stepAction.before ?_
    rcases hrow with ⟨-, rfl⟩ | ⟨v, -, rfl⟩ | ⟨k, -, rfl⟩
    · exact .refl _
    · exact undisturbed_collect kept v i hu
    · exact undisturbed_abortTransaction k i hu
  · obtain ⟨-, rfl⟩ := closeTransaction_next hclose
    exact BusAction.closed.stepAction.before (returnResult_returned _).undisturbed

theorem hostStep_action {s t : State} (h : hostStep s = .next t) :
    StepAction (s.thread s.host.context).todo s t := by
  rcases hostStep_next h with hhost | ⟨s', u, c, bytes, mask, hpre, -, hopen, hpost⟩ | ⟨s', hpre, hbusy, hpost⟩ |
    ⟨s', i, hpre, -, hexec, rest, hreqs, -⟩
  · exact hhost.undisturbed.stepAction
  · exact ⟨s', u, hpre.undisturbed, .opened hopen, hpost.undisturbed⟩
  · exact ⟨s', _, hpre.undisturbed, .configured (hpre.transactor.busy.trans hbusy), hpost.undisturbed⟩
  · exact hreqs ▸ (exec_action hexec).after hpre.undisturbed

/-- A step is one action of the transactor or of the context that runs. -/
theorem step_action {s t : State} (h : step s = .next t) : StepAction (s.thread s.host.context).todo s t := by
  refine StepAction.after (deviceMove_moved s).undisturbed ?_
  rcases step_next h with ⟨-, rfl⟩ | ⟨-, -, hseq⟩ | ⟨-, -, hhost⟩
  · exact (hostOnly_host _ _).undisturbed.stepAction
  · exact sequencerStep_action hseq
  · have hreqs : (deviceMove s).thread (deviceMove s).host.context = s.thread s.host.context := by
      rw [deviceMove_thread, (deviceMove_host s).1]
    exact hreqs ▸ hostStep_action hhost

/-! ### The parameters and the environment (R28) -/

theorem BusAction.par_env {reqs : List Request} {s t : State} (h : BusAction reqs s t) :
    t.par = s.par ∧ t.env = s.env := by
  cases h with
  | attempted attempt => exact ⟨attempt.bus.par, attempt.bus.env⟩
  | opened admitted => exact admitted.state ▸ ⟨rfl, rfl⟩
  | nothing | closed | configured | asserted | deasserted => exact ⟨rfl, rfl⟩

/-! ### The latched operands (R45) -/

/-- Only an admission latches operands, and none is admitted while a transaction is in flight (R72). -/
theorem BusAction.operands_of_busy {reqs : List Request} {s t : State} (h : BusAction reqs s t) (hbusy : s.busy = true) :
    SameOperands s t := by
  cases h with
  | attempted attempt => exact attempt.bus.transactor.operands
  | opened admitted => exact absurd (hbusy.symm.trans admitted.ready.2) (by decide)
  | nothing | closed | configured | asserted | deasserted => exact ⟨rfl, rfl, rfl, rfl, rfl⟩

/-! ### The calls of one primitive operation (R18, R80) -/

/-- The calls made are those of at most one primitive operation, and the line is where they leave it. -/
def OnePrimitive (s t : State) : Prop :=
  (t.calls = s.calls ∧ t.sel = s.sel) ∨
  (t.calls = s.calls ++ [Call.selectAssert] ∧ t.sel = .asserted) ∨
  (t.calls = s.calls ++ [Call.selectDeassert] ∧ t.sel = .deasserted) ∨
  (∃ f : Snapshot, t.calls = s.calls ++ [Call.statusRead f] ∧ t.sel = s.sel) ∨
  (∃ (f : Snapshot) (b : Byte), t.calls = s.calls ++ [Call.statusRead f, .dataWrite b] ∧ t.sel = s.sel ∧
    classifySend f = .ready ()) ∨
  (∃ (f : Snapshot) (v : Byte), t.calls = s.calls ++ [Call.statusRead f, .dataRead v] ∧ t.sel = s.sel ∧
    classifyReceive f = .ready ())

theorem Attempted.onePrimitive {s t : State} (h : Attempted s t) : OnePrimitive s t := by
  have hsel := h.bus.transactor.sel
  rcases h.calls with ⟨f, hcalls⟩ | ⟨f, b, hcalls, hready⟩ | ⟨f, v, hcalls, hready⟩
  · exact .inr (.inr (.inr (.inl ⟨f, hcalls, hsel⟩)))
  · exact .inr (.inr (.inr (.inr (.inl ⟨f, b, hcalls, hsel, hready⟩))))
  · exact .inr (.inr (.inr (.inr (.inr ⟨f, v, hcalls, hsel, hready⟩))))

theorem BusAction.onePrimitive {reqs : List Request} {s t : State} (h : BusAction reqs s t) : OnePrimitive s t := by
  cases h with
  | nothing => exact .inl ⟨rfl, rfl⟩
  | attempted attempt => exact attempt.onePrimitive
  | opened admitted => exact admitted.state ▸ .inr (.inl ⟨rfl, rfl⟩)
  | asserted => exact .inr (.inl ⟨rfl, rfl⟩)
  | closed | configured | deasserted => exact .inr (.inr (.inl ⟨rfl, rfl⟩))

theorem StepAction.onePrimitive {reqs : List Request} {s t : State} (h : StepAction reqs s t) : OnePrimitive s t := by
  obtain ⟨s', u, hpre, hact, hpost⟩ := h
  have hone := hact.onePrimitive
  unfold OnePrimitive at hone ⊢
  rwa [hpost.calls, hpost.sel, ← hpre.calls, ← hpre.sel]

/-! ### The requests of a framed host (R30) -/

/-- Every request a context has yet to make, the handler's list for its next start included. -/
def HostState.requests (h : HostState) : List Request := h.ordinary.todo ++ (h.handler.todo ++ h.isr)

theorem framedHost_iff {h : HostState} : framedHost h = true ↔ ∀ r ∈ h.requests, framedRequest r = true := by
  simp only [framedHost, HostState.requests, Bool.and_eq_true, List.all_eq_true, List.forall_mem_append]

theorem todo_subset_requests (s : State) (c : Context) : (s.thread c).todo ⊆ s.host.requests := by
  cases c <;> simp [HostState.requests, State.thread]

theorem requests_setThread_subset {s : State} {c : Context} {t : Thread} (h : t.todo ⊆ (s.thread c).todo) :
    (s.setThread c t).host.requests ⊆ s.host.requests := by
  intro r hr
  have hmem := @h r
  cases c <;> simp only [HostState.requests, State.setThread, State.thread, List.mem_append] at hr hmem ⊢ <;> tauto

theorem requests_deliver_subset (s : State) (c : Context) (r : Result) :
    (s.deliver c r).host.requests ⊆ s.host.requests := requests_setThread_subset (List.Subset.refl _)

theorem requests_setCall_subset (s : State) (c : Option CallStage) :
    (s.setCall c).host.requests ⊆ s.host.requests := requests_setThread_subset (List.Subset.refl _)

theorem requests_popped_subset {s : State} {r : Request} {rest : List Request}
    (h : (s.thread s.host.context).todo = r :: rest) : (s.popped rest).host.requests ⊆ s.host.requests :=
  requests_setThread_subset (h ▸ List.subset_cons_self r rest)

theorem requests_enterHandler_subset (s : State) : (enterHandler s).host.requests ⊆ s.host.requests := by
  intro r hr
  simp only [enterHandler_host, HostState.requests, List.mem_append] at hr ⊢
  tauto

theorem requests_finishCall_subset (r : Result) (s : State) : (finishCall r s).host.requests ⊆ s.host.requests :=
  List.Subset.trans (requests_deliver_subset _ _ _) (requests_setCall_subset _ _)

theorem requests_finishInit_subset (r : InitResult) (s : State) : (finishInit r s).host.requests ⊆ s.host.requests :=
  requests_finishCall_subset _ _

theorem Opened.host {c : Caller} {bytes : List Byte} {mask : List Bool} {s t : State} (h : Opened c bytes mask s t) :
    t.host = s.host := h.state ▸ rfl

theorem exec_requests_subset {i : Instr} {s t : State} (h : exec i s = .next t) :
    t.host.requests ⊆ s.host.requests := by
  rcases exec_next h with ⟨c, bytes, mask, hopen⟩ | ⟨-, -, rfl⟩ | ⟨-, -, rfl⟩ | ⟨b, o, u, -, -, hsend, rfl⟩ |
    ⟨o, u, -, -, hrecv, rfl⟩
  · exact hopen.host ▸ List.Subset.refl _
  · exact List.Subset.refl _
  · exact List.Subset.refl _
  · exact (attemptSend_busOnly hsend).host ▸ requests_deliver_subset u _ _
  · exact (attemptReceive_busOnly hrecv).host ▸ requests_deliver_subset u _ _

theorem sequencerStep_requests_subset {s t : State} (h : sequencerStep s = .next t) :
    t.host.requests ⊆ s.host.requests := by
  rcases sequencerStep_next h with ⟨i, b, o, u, -, -, hsend, hrow⟩ | ⟨i, kept, o, u, -, -, hrecv, hrow⟩ | ⟨i, -, hclose⟩
  · rw [← (attemptSend_busOnly hsend).host]
    rcases hrow with ⟨-, rfl⟩ | ⟨-, rfl⟩ | ⟨k, -, rfl⟩ <;> exact List.Subset.refl _
  · rw [← (attemptReceive_busOnly hrecv).host]
    rcases hrow with ⟨-, rfl⟩ | ⟨v, -, rfl⟩ | ⟨k, -, rfl⟩ <;> exact List.Subset.refl _
  · obtain ⟨-, rfl⟩ := closeTransaction_next hclose
    have hret := returnResult_returned (driveDeasserted s).release
    have hordinary := hret.todo .ordinary
    have hhandler := hret.todo .handler
    simp only [State.thread] at hordinary hhandler
    simp only [HostState.requests, hordinary, hhandler, hret.isr]
    exact List.Subset.refl _

theorem continueCall_requests_subset {stage : CallStage} {s t : State} (h : continueCall stage s = .next t) :
    t.host.requests ⊆ s.host.requests := by
  rcases continueCall_next h with ⟨r, rfl⟩ | ⟨r, rfl⟩ | ⟨c, mask, stage', u, hopen, rfl⟩
  · exact requests_finishInit_subset r s
  · exact requests_finishCall_subset r s
  · exact hopen.host ▸ requests_setCall_subset u _

theorem makeRequest_requests_subset {r : Request} {s t : State} (h : makeRequest r s = .next t) :
    t.host.requests ⊆ s.host.requests := by
  cases r with
  | frames bytes =>
    cases hdecode : decodeFrames bytes with
    | ok i => exact exec_requests_subset ((runFrames_of_ok hdecode s).symm.trans h)
    | error e => cases (runFrames_of_error hdecode s).symm.trans h
  | op i => exact exec_requests_subset h
  | call c =>
    rcases startCall_next h with ⟨cfg, -, -, rfl⟩ | ⟨c', mask, stage, u, -, hopen, rfl⟩
    · exact requests_setCall_subset (configureSelect s) _
    · exact hopen.host ▸ requests_setCall_subset u _
  | setInterrupt on =>
    cases h
    exact List.Subset.refl _

theorem hostStep_requests_subset {s t : State} (h : hostStep s = .next t) : t.host.requests ⊆ s.host.requests := by
  unfold hostStep at h
  split at h
  · exact continueCall_requests_subset h
  · split at h
    · unfold outOfRequests at h
      split at h <;> cases h <;> exact List.Subset.refl _
    · next r rest htodo => exact List.Subset.trans (makeRequest_requests_subset h) (requests_popped_subset htodo)

/-- No step gives the host a request that it did not have. -/
theorem step_requests_subset {s t : State} (h : step s = .next t) : t.host.requests ⊆ s.host.requests := by
  have hmoved : (deviceMove s).host.requests = s.host.requests := by
    obtain ⟨-, hordinary, hhandler, hisr, -, -⟩ := deviceMove_host s
    simp only [HostState.requests, hordinary, hhandler, hisr]
  rw [← hmoved]
  rcases step_next h with ⟨-, rfl⟩ | ⟨-, -, hseq⟩ | ⟨-, -, hhost⟩
  · exact requests_enterHandler_subset _
  · exact sequencerStep_requests_subset hseq
  · exact hostStep_requests_subset hhost

/-! ### The select line frames the transaction (R30) -/

theorem Undisturbed.selectFramed {s t : State} (h : Undisturbed s t) (hs : SelectFramed s) : SelectFramed t := by
  unfold SelectFramed at hs ⊢
  rwa [h.selCfg, h.sel, ne_eq, h.idle]

/-- Where no direct use of a select primitive is asked for, the line is asserted by an admission, deasserted by a close, and
deasserted with nothing in flight by initialisation step 1 (R73, R77, R109). -/
theorem BusAction.selectFramed {reqs : List Request} {s t : State} (h : BusAction reqs s t)
    (hreqs : ∀ r ∈ reqs, framedRequest r = true) (hidle : s.busy = false → s.seq = .idle) (hs : SelectFramed s) :
    SelectFramed t := by
  cases h with
  | nothing => exact hs
  | attempted attempt =>
    have htr := attempt.bus.transactor
    unfold SelectFramed at hs ⊢
    rwa [htr.selCfg, htr.sel, htr.seq]
  | @opened c bytes mask t admitted =>
    have hflight : (openedState c bytes mask s).seq ≠ .idle := by unfold openedState; dsimp only; split <;> simp
    exact admitted.state ▸ fun _ => iff_of_true rfl hflight
  | closed => exact fun _ => by simp
  | configured notBusy => exact fun _ => by simp [hidle notBusy]
  | asserted asked => exact absurd (hreqs _ asked) (by decide)
  | deasserted asked => exact absurd (hreqs _ asked) (by decide)

theorem step_selectFramed {s t : State} (hc : Coherent s) (hhost : framedHost s.host = true) (hs : SelectFramed s)
    (h : step s = .next t) : SelectFramed t := by
  obtain ⟨s', u, hpre, hact, hpost⟩ := step_action h
  have hreqs : ∀ r ∈ (s.thread s.host.context).todo, framedRequest r = true :=
    fun r hr => framedHost_iff.1 hhost r (todo_subset_requests s _ hr)
  have hidle : s'.busy = false → s'.seq = .idle := by
    intro hbusy
    by_contra hflight
    have : s'.busy = true := hpre.busy.trans (hc.busyInFlight.2 (mt hpre.idle.2 hflight))
    simp [hbusy] at this
  exact hpost.selectFramed (hact.selectFramed hreqs hidle (hpre.selectFramed hs))

/-! ### The direct select operations (R61, R62, R167) -/

theorem whenIdle_of_not_busy {s : State} (h : s.busy = false) (o : Out State) : whenIdle s o = o := by
  simp [whenIdle, h]

theorem selectAssert_of_configured {s : State} (h : s.selCfg = true) : selectAssert s = .next (driveAsserted s) :=
  if_pos h

theorem selectAssert_of_unconfigured {s : State} (h : s.selCfg = false) :
    selectAssert s = .refused .selectNotConfigured := by simp [selectAssert, h]

theorem selectDeassert_of_configured {s : State} (h : s.selCfg = true) : selectDeassert s = .next (driveDeasserted s) :=
  if_pos h

theorem selectDeassert_of_unconfigured {s : State} (h : s.selCfg = false) :
    selectDeassert s = .refused .selectNotConfigured := by simp [selectDeassert, h]

theorem exec_selectAssert_of_not_busy {s : State} (h : s.busy = false) : exec .selectAssert s = selectAssert s :=
  whenIdle_of_not_busy h _

theorem exec_selectDeassert_of_not_busy {s : State} (h : s.busy = false) : exec .selectDeassert s = selectDeassert s :=
  whenIdle_of_not_busy h _

/-! ### The obligations -/

/-- Settles O39: the step's action keeps the framing, and the host it leaves has no new request. -/
theorem stepKeepsSelectFraming : Obligations.StepKeepsSelectFraming := by
  intro s t hc hhost hs h
  have hframed : framedHost t.host = true :=
    framedHost_iff.2 fun r hr => framedHost_iff.1 hhost r (step_requests_subset h hr)
  exact ⟨hframed, step_selectFramed hc hhost hs h⟩

/-- Settles O43: no action, and nothing before or after it, changes them. -/
theorem stepKeepsParameters : Obligations.StepKeepsParameters := by
  intro s t h
  obtain ⟨s', u, hpre, hact, hpost⟩ := step_action h
  obtain ⟨hpar, henv⟩ := hact.par_env
  exact ⟨hpost.par.trans (hpar.trans hpre.par), hpost.env.trans (henv.trans hpre.env)⟩

/-- Settles O44: the block is still busy when the action is made, so it admits nothing. -/
theorem operandsStayLatched : Obligations.OperandsStayLatched := by
  intro s t hbusy h
  obtain ⟨s', u, hpre, hact, hpost⟩ := step_action h
  have hact := hact.operands_of_busy (hpre.busy.trans hbusy)
  obtain ⟨hn, hout, hkeep, hcaller, howner⟩ := (hpre.operands.trans hact).trans hpost.operands
  exact ⟨hn, hout, hkeep, hcaller, howner⟩

/-- Settles O46: the calls of a step are those of its one action. -/
theorem stepMakesOnePrimitive : Obligations.StepMakesOnePrimitive :=
  fun _ _ h => (step_action h).onePrimitive

/-- Settles O13: admitted on an idle block, the request is the primitive itself. -/
theorem selectAssertDrivesLineLow : Obligations.SelectAssertDrivesLineLow :=
  ⟨rfl, fun _ ⟨hcfg, hbusy⟩ => (exec_selectAssert_of_not_busy hbusy).trans (selectAssert_of_configured hcfg),
    fun _ hbusy hcfg => (exec_selectAssert_of_not_busy hbusy).trans (selectAssert_of_unconfigured hcfg)⟩

/-- Settles O14: the same for the deassertion. -/
theorem selectDeassertDrivesLineHigh : Obligations.SelectDeassertDrivesLineHigh :=
  ⟨rfl, fun _ ⟨hcfg, hbusy⟩ => (exec_selectDeassert_of_not_busy hbusy).trans (selectDeassert_of_configured hcfg),
    fun _ hbusy hcfg => (exec_selectDeassert_of_not_busy hbusy).trans (selectDeassert_of_unconfigured hcfg)⟩

/-- Settles O38: no request at reset, and a line that is not configured yet. -/
theorem resetIsFramed : Obligations.ResetIsFramed :=
  ⟨rfl, fun hcfg => absurd hcfg (by decide)⟩

/-- Settles O40: the reset state has these values. -/
theorem resetValues : Obligations.ResetValues :=
  ⟨rfl, rfl, rfl, rfl, rfl⟩

end Sys2Proof.Machine

/-! ## The device, the reference peripheral, and the formats of bits and bytes -/

namespace Sys2Proof.Machine

/-! ### The register pointer (R164) -/

theorem advancePtr_of_single {d : Device} (h : d.multi = false) : d.advancePtr = d := by
  simp [Device.advancePtr, h]

theorem advancePtr_of_multi {d : Device} (h : d.multi = true) (hptr : d.ptr ≠ 0x3F) :
    d.advancePtr = { d with ptr := d.ptr + 1 } := by
  simp only [Device.advancePtr, h, if_true, if_neg hptr]

theorem advancePtr_of_last {d : Device} (h : d.multi = true) (hptr : d.ptr = 0x3F) :
    d.advancePtr = { d with phase := .exhausted } := by
  simp only [Device.advancePtr, h, if_true, if_pos hptr]

/-- Below the last address the pointer does not wrap (R36). -/
theorem regAddr_toNat_succ {a : RegAddr} (h : a ≠ 0x3F) : (a + 1).toNat = a.toNat + 1 := by
  bv_omega

/-- What every data frame makes of the transaction the device is in: the latched command stays, the pointer moves by the
multi-byte bit (R164; log 30). -/
structure PointerMoved (d e : Device) : Prop where
  dir : e.dir = d.dir
  multi : e.multi = d.multi
  first : e.first = d.first
  single : d.multi = false → e.ptr = d.ptr ∧ e.phase = .data
  next : d.multi = true → d.ptr ≠ 0x3F → e.ptr.toNat = d.ptr.toNat + 1 ∧ e.phase = .data
  last : d.multi = true → d.ptr = 0x3F → e.phase = .exhausted

/-- The pointer's move is the same whatever else the frame did before it. -/
theorem advancePtr_pointerMoved {d e : Device} (hphase : e.phase = .data) (hdir : e.dir = d.dir)
    (hmulti : e.multi = d.multi) (hfirst : e.first = d.first) (hptr : e.ptr = d.ptr) : PointerMoved d e.advancePtr := by
  by_cases hm : e.multi = true
  · have hne : d.multi ≠ false := by simp [← hmulti, hm]
    by_cases hlast : e.ptr = 0x3F
    · rw [advancePtr_of_last hm hlast]
      exact ⟨hdir, hmulti, hfirst, fun h => absurd h hne, fun _ h => absurd (hptr ▸ hlast) h, fun _ _ => rfl⟩
    · rw [advancePtr_of_multi hm hlast]
      exact ⟨hdir, hmulti, hfirst, fun h => absurd h hne, fun _ _ => ⟨hptr ▸ regAddr_toNat_succ hlast, hphase⟩,
        fun _ h => absurd (hptr.trans h) hlast⟩
  · rw [advancePtr_of_single (by simpa using hm)]
    have hne : d.multi ≠ true := hmulti ▸ hm
    exact ⟨hdir, hmulti, hfirst, fun _ => ⟨hptr, hphase⟩, fun h => absurd h hne, fun h => absurd h hne⟩

/-! ### The reference device, phase by phase (R163, R164) -/

theorem referenceFrame_of_idle {dummy b : Byte} {d : Device} (h : d.phase = .idle) :
    referenceFrame dummy b d = .refused .frameWhileIdle := by simp only [referenceFrame, h]

theorem referenceFrame_of_exhausted {dummy b : Byte} {d : Device} (h : d.phase = .exhausted) :
    referenceFrame dummy b d = .refused (.badRequest .pointerWrap) := by simp only [referenceFrame, h]

theorem referenceFrame_of_awaitCmd {dummy b : Byte} {d : Device} (h : d.phase = .awaitCmd) :
    referenceFrame dummy b d = .next (dummy, d.latch b) := by simp only [referenceFrame, h]

theorem referenceFrame_of_read {dummy b : Byte} {d : Device} (h : d.phase = .data) (hdir : d.dir = true) :
    referenceFrame dummy b d = .next (regRead d d.ptr, d.advancePtr) := by simp [referenceFrame, h, hdir]

theorem referenceFrame_of_write {dummy b : Byte} {d : Device} (h : d.phase = .data) (hdir : d.dir = false) :
    referenceFrame dummy b d = .next (dummy, (regWrite d d.ptr b).advancePtr) := by simp [referenceFrame, h, hdir]

/-- The address field of a command byte as a number (R51). -/
theorem cmdAddr_toNat (b : Byte) : (cmdAddr b).toNat = b.toNat % 64 := by
  simp [cmdAddr]

/-- The byte stored at the pointer, and every other location as it was, whatever else the frame changes. -/
theorem regRead_of_regs_write {d e : Device} {a : RegAddr} {b : Byte} (h : e.regs = (regWrite d a b).regs) :
    regRead e a = b ∧ ∀ a', a' ≠ a → regRead e a' = regRead d a' :=
  ⟨(regRead_congr h a).trans (regRead_regWrite_same d a b),
    fun a' hne => (regRead_congr h a').trans (regRead_regWrite_other d b hne)⟩

/-! ### The device that is not the reference one (R40, R86; logs 8, 10, 30) -/

theorem followFrame_of_data {p : Params} {k : Nat} {b : Byte} {d : Device} (h : d.phase = .data) :
    followFrame p k b d = (sensorEffects p k b (d.stored b)).advancePtr := by simp only [followFrame, h]

theorem followFrame_of_awaitCmd {p : Params} {k : Nat} {b : Byte} {d : Device} (h : d.phase = .awaitCmd) :
    followFrame p k b d = d.latch b := by simp only [followFrame, h]

theorem followFrame_of_other {p : Params} {k : Nat} {b : Byte} {d : Device} (h : d.phase = .idle ∨ d.phase = .exhausted) :
    followFrame p k b d = d := by
  rcases h with h | h <;> simp only [followFrame, h]

/-- A data frame of a read stores nothing and may clear the pending condition. -/
theorem effects_of_read {p : Params} {k : Nat} {b : Byte} {d : Device} (h : d.dir = true) :
    sensorEffects p k b (d.stored b) = { d with dataReady := d.dataReady && !(isMeasurement p d.ptr &&
      ((decide (d.ptr.toNat = p.aAxis0Low.toNat + 5) && decide (d.first.toNat ≤ p.aAxis0Low.toNat)) ||
        Config.drawCleared k)) } := by
  simp [Device.stored, sensorEffects, h]

/-- A data frame of a write stores its byte and has the effects of the control registers. -/
theorem effects_of_write {p : Params} {k : Nat} {b : Byte} {d : Device} (h : d.dir = false) :
    sensorEffects p k b (d.stored b) = { regWrite d d.ptr b with
      powered := d.powered || decide (d.ptr = p.aCtrlPrimary)
      drdyEnabled := if d.ptr = p.aCtrlInterrupt then enablesDataReady b else d.drdyEnabled } := by
  simp [Device.stored, sensorEffects, regWrite, h]

theorem followFrame_pointerMoved (p : Params) (k : Nat) (b : Byte) {d : Device} (h : d.phase = .data) :
    PointerMoved d (followFrame p k b d) := by
  rw [followFrame_of_data h]
  cases hdir : d.dir with
  | true => exact effects_of_read hdir ▸ advancePtr_pointerMoved h rfl rfl rfl rfl
  | false => exact effects_of_write hdir ▸ advancePtr_pointerMoved h rfl rfl rfl rfl

/-- The sensor's three bits after a data frame of a read (R40). -/
theorem followFrame_sensor_of_read (p : Params) (k : Nat) (b : Byte) {d : Device} (h : d.phase = .data)
    (hdir : d.dir = true) :
    (followFrame p k b d).powered = d.powered ∧ (followFrame p k b d).drdyEnabled = d.drdyEnabled ∧
      (followFrame p k b d).dataReady = (d.dataReady && !(isMeasurement p d.ptr &&
        ((decide (d.ptr.toNat = p.aAxis0Low.toNat + 5) && decide (d.first.toNat ≤ p.aAxis0Low.toNat)) ||
          Config.drawCleared k))) := by
  rw [followFrame_of_data h, effects_of_read hdir]
  exact advancePtr_sensor _

/-- The sensor's three bits after a data frame of a write (R134, R143). -/
theorem followFrame_sensor_of_write (p : Params) (k : Nat) (b : Byte) {d : Device} (h : d.phase = .data)
    (hdir : d.dir = false) :
    (followFrame p k b d).powered = (d.powered || decide (d.ptr = p.aCtrlPrimary)) ∧
      (followFrame p k b d).drdyEnabled = (if d.ptr = p.aCtrlInterrupt then enablesDataReady b else d.drdyEnabled) ∧
      (followFrame p k b d).dataReady = d.dataReady := by
  rw [followFrame_of_data h, effects_of_write hdir]
  exact advancePtr_sensor _

theorem isMeasurement_last {p : Params} {a : RegAddr} (h : a.toNat = p.aAxis0Low.toNat + 5) : isMeasurement p a = true := by
  simp [isMeasurement, h]

/-! ### The reference peripheral (R161, R162) -/

theorem statusRead_of_reference {s : State} (h : s.env = .reference) :
    statusRead s = .next ({ s with per := s.per.tick }.present (referenceFlags s.per)) := by simp only [statusRead, h]

theorem dataRead_of_reference {s : State} (h : s.env = .reference) :
    dataRead s =
      .next ({ s with per := { s.per with rxFull := false, waitTx := s.per.delayTx } }.receiveByte s.per.rxByte) := by
  simp only [dataRead, h]

/-- In the reference environment a DataWrite answers exactly when the device takes the frame. -/
theorem dataWrite_next_iff_of_reference {s t : State} {b : Byte} (h : s.env = .reference) :
    dataWrite b s = .next t ↔
      ∃ r d, referenceFrame s.par.dummy b s.dev = .next (r, d) ∧ t = (s.handOver b).replied r d := by
  simp only [dataWrite, h, andThen_eq_next, Prod.exists, Host.Outcome.next.injEq, @eq_comm _ _ t]

theorem dataWrite_of_not_reference {s : State} (b : Byte) (h : s.env ≠ .reference) :
    dataWrite b s = .next ((s.handOver b).followed b) := by
  cases henv : s.env with
  | oracle => simp only [dataWrite, henv]
  | scripted => simp only [dataWrite, henv]
  | reference => exact absurd henv h

theorem receive_of_full {r : Byte} {p : Peripheral} (h : p.rxFull = true) :
    p.receive r = { p with ovr := true, waitRx := p.delayRx } := by simp [Peripheral.receive, h]

theorem receive_of_empty {r : Byte} {p : Peripheral} (h : p.rxFull = false) :
    p.receive r = { p with rxByte := r, rxFull := true, waitRx := p.delayRx } := by simp [Peripheral.receive, h]

/-- A frame starts the wait for its receive anew, and leaves the wait for the next send. -/
theorem receive_waits (r : Byte) (p : Peripheral) :
    (p.receive r).waitRx = p.delayRx ∧ (p.receive r).waitTx = p.waitTx := by
  cases h : p.rxFull with
  | true => rw [receive_of_full h]; exact ⟨rfl, rfl⟩
  | false => rw [receive_of_empty h]; exact ⟨rfl, rfl⟩

/-- After `k` snapshots the two waits are `k` lower; the receive's only while a byte is received. -/
theorem iterate_tick (k : Nat) (p : Peripheral) :
    Peripheral.tick^[k] p =
      { p with waitTx := p.waitTx - k, waitRx := if p.rxFull then p.waitRx - k else p.waitRx } := by
  induction k with
  | zero => simp
  | succ k ih =>
    rw [Function.iterate_succ_apply', ih]
    cases p.rxFull <;> simp [Peripheral.tick, Nat.sub_sub]

theorem sub_beq_zero (n k : Nat) : (n - k == 0) = decide (n ≤ k) := by
  rw [Bool.eq_iff_iff]
  simp [Nat.sub_eq_zero_iff_le]

/-! ### What a step does to the device (R80, R88, R89) -/

/-- Nothing on the bus happens: what the host and the sequencer do before and after a primitive. -/
structure BusKept (s t : State) : Prop where
  dev : t.dev = s.dev
  per : t.per = s.per
  env : t.env = s.env
  par : t.par = s.par
  calls : t.calls = s.calls

theorem BusKept.refl (s : State) : BusKept s s := ⟨rfl, rfl, rfl, rfl, rfl⟩

theorem HostOnly.busKept {s t : State} (h : HostOnly s t) : BusKept s t := ⟨h.dev, h.per, h.env, h.par, h.calls⟩

theorem Returned.busKept {s t : State} (h : Returned s t) : BusKept s t := ⟨h.dev, h.per, h.env, h.par, h.calls⟩

/-- No byte is handed over: the device keeps everything but the phase a select primitive puts it in, and the overrun stays as
it is. -/
structure Unframed (s t : State) : Prop where
  device : ∃ phase, t.dev = { s.dev with phase := phase }
  ovr : t.per.ovr = s.per.ovr
  calls : ∃ cs : List Call, t.calls = s.calls ++ cs ∧ ∀ b, .dataWrite b ∉ cs

/-- One byte is handed over, after the StatusRead of its attempt, and the device takes the frame. -/
structure Framed (b : Byte) (s t : State) : Prop where
  calls : ∃ f : Snapshot, t.calls = s.calls ++ [.statusRead f, .dataWrite b]
  stores : ∀ a, storeTarget s = some a → t.dev.regs = (regWrite s.dev a b).regs
  keeps : storeTarget s = none → t.dev.regs = s.dev.regs
  sensor : SensorFrame s.par s.dev t.dev
  reference : s.env = .reference →
    t.dev.powered = s.dev.powered ∧ t.dev.drdyEnabled = s.dev.drdyEnabled ∧ t.dev.dataReady = s.dev.dataReady
  ovr : s.per.ovr = true → t.per.ovr = true

/-- What any step past the device's own move does to the device: at most one frame. -/
def DeviceEffect (s t : State) : Prop := Unframed s t ∨ ∃ b, Framed b s t

theorem storeTarget_congr {s t : State} (hphase : t.dev.phase = s.dev.phase) (hdir : t.dev.dir = s.dev.dir)
    (hptr : t.dev.ptr = s.dev.ptr) : storeTarget t = storeTarget s := by
  simp only [storeTarget, hphase, hdir, hptr]

theorem BusKept.unframed {s t : State} (h : BusKept s t) : Unframed s t :=
  ⟨⟨s.dev.phase, h.dev⟩, congrArg _ h.per, ⟨[], by simp [h.calls], by simp⟩⟩

theorem BusKept.deviceEffect {s t : State} (h : BusKept s t) : DeviceEffect s t := .inl h.unframed

theorem Unframed.trans {s t u : State} (h : Unframed s t) (g : Unframed t u) : Unframed s u := by
  obtain ⟨⟨p, hdev⟩, hovr, ⟨cs, hcs, hno⟩⟩ := h
  obtain ⟨⟨q, gdev⟩, govr, ⟨ds, gds, gno⟩⟩ := g
  exact ⟨⟨q, by rw [gdev, hdev]⟩, govr.trans hovr, ⟨cs ++ ds, by rw [gds, hcs, List.append_assoc],
    fun b hb => (List.mem_append.1 hb).elim (hno b) (gno b)⟩⟩

theorem Framed.after {b : Byte} {s s' t : State} (h : BusKept s s') (g : Framed b s' t) : Framed b s t := by
  have htarget : storeTarget s' = storeTarget s := by simp only [storeTarget, h.dev]
  obtain ⟨hcalls, hstores, hkeeps, hsensor, href, hovr⟩ := g
  rw [h.calls] at hcalls
  rw [htarget, h.dev] at hstores hkeeps
  rw [h.par, h.dev] at hsensor
  rw [h.env, h.dev] at href
  rw [h.per] at hovr
  exact ⟨hcalls, hstores, hkeeps, hsensor, href, hovr⟩

theorem Framed.before {b : Byte} {s t u : State} (h : Framed b s t) (g : BusKept t u) : Framed b s u := by
  obtain ⟨hcalls, hstores, hkeeps, hsensor, href, hovr⟩ := h
  rw [← g.calls] at hcalls
  rw [← g.dev] at hstores hkeeps hsensor href
  rw [← g.per] at hovr
  exact ⟨hcalls, hstores, hkeeps, hsensor, href, hovr⟩

theorem DeviceEffect.after {s s' t : State} (h : BusKept s s') (g : DeviceEffect s' t) : DeviceEffect s t :=
  g.imp h.unframed.trans fun ⟨b, hb⟩ => ⟨b, hb.after h⟩

theorem DeviceEffect.before {s t u : State} (h : DeviceEffect s t) (g : BusKept t u) : DeviceEffect s u :=
  h.imp (·.trans g.unframed) fun ⟨b, hb⟩ => ⟨b, hb.before g⟩

/-! #### The primitives -/

theorem StatusReadDone.unframed {s t : State} (h : StatusReadDone s t) : Unframed s t :=
  ⟨⟨s.dev.phase, h.dev⟩, h.ovr, ⟨_, h.calls, by simp⟩⟩

theorem DataReadDone.unframed {s t : State} (h : DataReadDone s t) : Unframed s t :=
  ⟨⟨s.dev.phase, h.dev⟩, h.ovr, ⟨_, h.calls, by simp⟩⟩

theorem driveAsserted_unframed (s : State) : Unframed s (driveAsserted s) :=
  ⟨⟨_, rfl⟩, rfl, ⟨_, rfl, by simp⟩⟩

theorem driveDeasserted_unframed (s : State) : Unframed s (driveDeasserted s) :=
  ⟨⟨_, rfl⟩, rfl, ⟨_, rfl, by simp⟩⟩

theorem Opened.unframed {c : Caller} {bytes : List Byte} {mask : List Bool} {s t : State}
    (h : Opened c bytes mask s t) : Unframed s t :=
  h.state ▸ ⟨⟨_, rfl⟩, rfl, ⟨_, rfl, by simp⟩⟩

/-- R165: a frame of the reference environment leaves the sensor's three bits. -/
theorem dataWrite_sensor_of_reference {b : Byte} {s t : State} (henv : s.env = .reference)
    (h : dataWrite b s = .next t) :
    t.dev.powered = s.dev.powered ∧ t.dev.drdyEnabled = s.dev.drdyEnabled ∧ t.dev.dataReady = s.dev.dataReady := by
  obtain ⟨r, d, hframe, rfl⟩ := (dataWrite_next_iff_of_reference henv).1 h
  exact referenceFrame_sensor hframe

/-- A StatusRead and the DataWrite after it. -/
theorem framed_of_statusRead_dataWrite {b : Byte} {s s1 t : State} (hread : statusRead s = .next s1)
    (hwrite : dataWrite b s1 = .next t) : Framed b s t := by
  have hr := statusRead_next hread
  have hw := dataWrite_next hwrite
  have htarget : storeTarget s1 = storeTarget s := by simp only [storeTarget, hr.dev]
  have hregs := hw.regs
  have hsensor := hw.sensor
  have href := fun henv => dataWrite_sensor_of_reference (hr.bus.env.trans henv) hwrite
  rw [htarget, hr.dev] at hregs
  rw [hr.bus.par, hr.dev] at hsensor
  rw [hr.dev] at href
  exact ⟨⟨s1.per.flags, by rw [hw.calls, hr.calls]; simp⟩, fun a ha => by rw [ha] at hregs; exact hregs,
    fun hnone => by rw [hnone] at hregs; exact hregs, hsensor, href, fun hovr => hw.ovr (hr.ovr.trans hovr)⟩

theorem attemptSend_deviceEffect {b : Byte} {s t : State} {o : BusOutcome Unit} (h : attemptSend b s = .next (o, t)) :
    DeviceEffect s t := by
  obtain ⟨s1, hread, -, ⟨-, hwrite⟩ | ⟨-, rfl⟩⟩ := attemptSend_next h
  · exact .inr ⟨b, framed_of_statusRead_dataWrite hread hwrite⟩
  · exact .inl (statusRead_next hread).unframed

theorem attemptReceive_unframed {s t : State} {o : BusOutcome Byte} (h : attemptReceive s = .next (o, t)) :
    Unframed s t := by
  obtain ⟨s1, hread, ⟨-, hmove, -⟩ | ⟨-, -, rfl⟩ | ⟨k, -, -, rfl⟩⟩ := attemptReceive_next h
  · exact (statusRead_next hread).unframed.trans (dataRead_next hmove).unframed
  · exact (statusRead_next hread).unframed
  · exact (statusRead_next hread).unframed

/-! #### The steps -/

theorem exec_deviceEffect {i : Instr} {s t : State} (h : exec i s = .next t) : DeviceEffect s t := by
  rcases exec_next h with ⟨c, bytes, mask, hopen⟩ | ⟨-, -, rfl⟩ | ⟨-, -, rfl⟩ | ⟨b, o, u, -, -, hsend, rfl⟩ |
    ⟨o, u, -, -, hrecv, rfl⟩
  · exact .inl hopen.unframed
  · exact .inl (driveAsserted_unframed s)
  · exact .inl (driveDeasserted_unframed s)
  · exact (attemptSend_deviceEffect hsend).before (hostOnly_deliver _ _ _).busKept
  · exact .inl ((attemptReceive_unframed hrecv).trans (hostOnly_deliver _ _ _).busKept.unframed)

theorem sequencerStep_deviceEffect {s t : State} (h : sequencerStep s = .next t) : DeviceEffect s t := by
  rcases sequencerStep_next h with ⟨i, b, o, u, -, -, hsend, hrow⟩ | ⟨i, kept, o, u, -, -, hrecv, hrow⟩ | ⟨i, -, hclose⟩
  · refine (attemptSend_deviceEffect hsend).before ?_
    rcases hrow with ⟨-, rfl⟩ | ⟨-, rfl⟩ | ⟨k, -, rfl⟩ <;> exact ⟨rfl, rfl, rfl, rfl, rfl⟩
  · refine DeviceEffect.before (.inl (attemptReceive_unframed hrecv)) ?_
    rcases hrow with ⟨-, rfl⟩ | ⟨v, -, rfl⟩ | ⟨k, -, rfl⟩ <;> exact ⟨rfl, rfl, rfl, rfl, rfl⟩
  · obtain ⟨-, rfl⟩ := closeTransaction_next hclose
    have hreleased : Unframed s (driveDeasserted s).release :=
      (driveDeasserted_unframed s).trans (BusKept.unframed ⟨rfl, rfl, rfl, rfl, rfl⟩)
    exact .inl (hreleased.trans (returnResult_returned _).busKept.unframed)

theorem hostStep_deviceEffect {s t : State} (h : hostStep s = .next t) : DeviceEffect s t := by
  rcases hostStep_next h with hhost | ⟨s', u, c, bytes, mask, hpre, -, hopen, hpost⟩ | ⟨s', hpre, -, hpost⟩ |
    ⟨s', i, hpre, -, hexec, -⟩
  · exact hhost.busKept.deviceEffect
  · exact .inl ((hpre.busKept.unframed.trans hopen.unframed).trans hpost.busKept.unframed)
  · have hconfigured : Unframed s' (configureSelect s') :=
      (driveDeasserted_unframed s').trans (BusKept.unframed ⟨rfl, rfl, rfl, rfl, rfl⟩)
    exact .inl ((hpre.busKept.unframed.trans hconfigured).trans hpost.busKept.unframed)
  · exact (exec_deviceEffect hexec).after hpre.busKept

/-- A step is the device's own move, and then at most one frame. -/
theorem step_deviceEffect {s t : State} (h : step s = .next t) : DeviceEffect (deviceMove s) t := by
  rcases step_next h with ⟨-, rfl⟩ | ⟨-, -, hseq⟩ | ⟨-, -, hhost⟩
  · exact (hostOnly_host _ _).busKept.deviceEffect
  · exact sequencerStep_deviceEffect hseq
  · exact hostStep_deviceEffect hhost

/-- The device's own move sets the pending condition and does not clear it. -/
theorem deviceMove_of_dataReady {s : State} (h : s.dev.dataReady = true) : deviceMove s = s := by
  simp [deviceMove, h]

theorem deviceMove_storeTarget (s : State) : storeTarget (deviceMove s) = storeTarget s :=
  have ⟨hphase, hdir, _, hptr⟩ := (deviceMove_moved s).frame
  storeTarget_congr hphase hdir hptr

theorem Unframed.calls_ne {s t : State} (h : Unframed s t) (f : Snapshot) (b : Byte) :
    t.calls ≠ s.calls ++ [.statusRead f, .dataWrite b] := by
  obtain ⟨cs, hcs, hno⟩ := h.calls
  intro heq
  have : cs = [.statusRead f, .dataWrite b] := List.append_cancel_left (hcs.symm.trans heq)
  exact hno b (by simp [this])

theorem Unframed.sameRegs {s t : State} (h : Unframed s t) (a : RegAddr) : regRead t.dev a = regRead s.dev a := by
  obtain ⟨phase, hdev⟩ := h.device
  exact regRead_congr (by rw [hdev]) a

/-- A frame changes no location but the one it stores to. -/
theorem Framed.sameRegsBut {b : Byte} {s t : State} (h : Framed b s t) : SameRegsBut (storeTarget s) s t := by
  intro a hne
  cases htarget : storeTarget s with
  | none => exact regRead_congr (h.keeps htarget) a
  | some a' =>
    obtain ⟨-, hother⟩ := regRead_of_regs_write (h.stores a' htarget)
    exact hother a fun haa => hne (haa ▸ htarget)

/-! ### The sensor's three bits along a step (R40, R134; logs 10, 11, 32) -/

/-- The step hands a byte over while the device is in the data phase of the direction `dir`. -/
structure HandsDataFrame (dir : Bool) (s t : State) : Prop where
  phase : s.dev.phase = .data
  dir : s.dev.dir = dir
  calls : ∃ (f : Snapshot) (b : Byte), t.calls = s.calls ++ [.statusRead f, .dataWrite b]

/-- What a step can do to the sensor's three bits. -/
structure SensorStep (s t : State) : Prop where
  sets : s.dev.powered = false ∨ s.dev.drdyEnabled = false → s.dev.dataReady = false → t.dev.dataReady = false
  powered : t.dev.powered = s.dev.powered ∨
    (t.dev.powered = true ∧ HandsDataFrame false s t ∧ s.dev.ptr = s.par.aCtrlPrimary)
  drdyEnabled : t.dev.drdyEnabled = s.dev.drdyEnabled ∨ (HandsDataFrame false s t ∧ s.dev.ptr = s.par.aCtrlInterrupt)
  clears : s.dev.dataReady = true → t.dev.dataReady = true ∨
    (HandsDataFrame true s t ∧ isMeasurement s.par s.dev.ptr = true)

theorem Framed.handsDataFrame {b : Byte} {s t : State} {dir : Bool} (h : Framed b s t) (hphase : s.dev.phase = .data)
    (hdir : s.dev.dir = dir) : HandsDataFrame dir s t :=
  have ⟨f, hcalls⟩ := h.calls
  ⟨hphase, hdir, f, b, hcalls⟩

theorem Unframed.sensorStep {s t : State} (h : Unframed s t) : SensorStep s t := by
  obtain ⟨phase, hdev⟩ := h.device
  exact ⟨fun _ hclear => hdev ▸ hclear, .inl (hdev ▸ rfl), .inl (hdev ▸ rfl), fun hset => .inl (hdev ▸ hset)⟩

theorem Framed.sensorStep {b : Byte} {s t : State} (h : Framed b s t) : SensorStep s t where
  sets _ hclear := by
    rcases h.sensor.dataReady with hsame | ⟨hcleared, -⟩
    · exact hsame.trans hclear
    · exact hcleared
  powered := h.sensor.powered.imp_right fun ⟨hon, hphase, hdir, hptr⟩ => ⟨hon, h.handsDataFrame hphase hdir, hptr⟩
  drdyEnabled := h.sensor.drdyEnabled.imp_right fun ⟨hphase, hdir, hptr⟩ => ⟨h.handsDataFrame hphase hdir, hptr⟩
  clears hset := h.sensor.dataReady.imp (·.trans hset)
    fun ⟨_, hphase, hdir, hmeas⟩ => ⟨h.handsDataFrame hphase hdir, hmeas⟩

theorem HandsDataFrame.of_deviceMove {dir : Bool} {s t : State} (h : HandsDataFrame dir (deviceMove s) t) :
    HandsDataFrame dir s t := by
  have hmoved := deviceMove_moved s
  obtain ⟨hphase, hdir, -, -⟩ := hmoved.frame
  exact ⟨hphase ▸ h.phase, hdir ▸ h.dir, hmoved.calls ▸ h.calls⟩

/-- The device's own move only sets the pending condition, and only with the elements on and the interrupt enabled. -/
theorem SensorStep.of_deviceMove {s t : State} (h : SensorStep (deviceMove s) t) : SensorStep s t := by
  have hmoved := deviceMove_moved s
  obtain ⟨-, -, -, hptr⟩ := hmoved.frame
  refine ⟨fun hoff hclear => ?_, ?_, ?_, fun hset => ?_⟩
  · have hstays : (deviceMove s).dev.dataReady = false := by
      by_contra hset
      rcases hmoved.dataReady (by simpa using hset) with hwas | ⟨hon, hena⟩
      · simp [hclear] at hwas
      · simp [hon, hena] at hoff
    exact h.sets (by rwa [hmoved.powered, hmoved.drdyEnabled]) hstays
  · have hpow := h.powered
    rw [hmoved.powered, hmoved.par, hptr] at hpow
    exact hpow.imp_right fun ⟨hon, hframe, hat⟩ => ⟨hon, hframe.of_deviceMove, hat⟩
  · have hena := h.drdyEnabled
    rw [hmoved.drdyEnabled, hmoved.par, hptr] at hena
    exact hena.imp_right fun ⟨hframe, hat⟩ => ⟨hframe.of_deviceMove, hat⟩
  · rw [deviceMove_of_dataReady hset] at h
    exact h.clears hset

theorem step_sensorStep {s t : State} (h : step s = .next t) : SensorStep s t := by
  rcases step_deviceEffect h with hun | ⟨b, hframe⟩
  · exact hun.sensorStep.of_deviceMove
  · exact hframe.sensorStep.of_deviceMove

/-! ### The bits of a frame (R35, R53) -/

theorem shiftIn_getElem_zero (acc : Byte) (bit : Bool) : (shiftIn acc bit)[0] = bit := by
  simp [shiftIn]

theorem shiftIn_getElem_succ (acc : Byte) (bit : Bool) {i : Nat} (h : i + 1 < 8) :
    (shiftIn acc bit)[i + 1] = acc[i] := by
  simp [shiftIn]

/-- Eight bits shifted in leave the byte whose bits they are. -/
theorem ofWireBits_wireBits (b : Byte) : ofWireBits (wireBits b) = b := by
  refine BitVec.eq_of_getElem_eq fun i hi => ?_
  simp only [ofWireBits, wireBits, List.foldl_cons, List.foldl_nil]
  interval_cases i <;> simp [shiftIn_getElem_zero, shiftIn_getElem_succ]

theorem wireBits_getElem? (b : Byte) {i : Nat} (h : i < 8) : (wireBits b)[i]? = some (b.getLsbD (7 - i)) := by
  interval_cases i <;> rfl

/-- The two edges of one pulse, low and then high, with the bits the two data lines hold (R53). -/
def pulseEdges (p : Bool × Bool) : List WireEdge := [⟨false, p.1, p.2⟩, ⟨true, p.1, p.2⟩]

theorem frameEdges_eq (m d : Byte) : frameEdges m d = ((wireBits m).zip (wireBits d)).flatMap pulseEdges := rfl

theorem pulses_clock (ps : List (Bool × Bool)) :
    (ps.flatMap pulseEdges).map WireEdge.clock = (List.replicate ps.length [false, true]).flatten := by
  induction ps with
  | nil => rfl
  | cons p ps ih => simp [pulseEdges, ih, List.replicate_succ]

/-- Sampling at the second edge takes each pulse's bits once (R53). -/
theorem sampledEdges_pulses (ps : List (Bool × Bool)) :
    sampledEdges (ps.flatMap pulseEdges) = ps.map fun p => ⟨true, p.1, p.2⟩ := by
  induction ps with
  | nil => rfl
  | cons p ps ih =>
    have hpulse : sampledEdges (pulseEdges p) = [⟨true, p.1, p.2⟩] := rfl
    simp only [sampledEdges] at ih hpulse
    simp only [sampledEdges, List.flatMap_cons, List.filter_append, hpulse, ih, List.map_cons, List.singleton_append]

/-! ### The counts of the axes (R37, R103) -/

theorem wordOf_toNat (low high : Byte) : (wordOf low high).toNat = high.toNat * 256 + low.toNat := by
  have hlow := low.isLt
  have hhigh := high.isLt
  have hshift : (high.setWidth 16 <<< 8 : Half).toNat = high.toNat <<< 8 := by
    rw [BitVec.toNat_shiftLeft, BitVec.toNat_setWidth, Nat.shiftLeft_eq, Nat.shiftLeft_eq]
    omega
  have hlowWord : (low.setWidth 16 : Half).toNat = low.toNat := by
    rw [BitVec.toNat_setWidth]
    omega
  rw [wordOf, BitVec.toNat_or, hshift, hlowWord, ← Nat.shiftLeft_add_eq_or_of_lt hlow, Nat.shiftLeft_eq]

/-- A little-endian word, signed, is its high byte, signed, times 256 plus its low byte. -/
theorem asSigned16_wordOf (low high : Byte) : asSigned16 (wordOf low high) = high.toInt * 256 + low.toNat := by
  have hlow := low.isLt
  have hhigh := high.isLt
  rw [asSigned16, wordOf_toNat, BitVec.toInt_eq_toNat_cond]
  split <;> split <;> omega

/-! ### Refused accesses (R92) -/

theorem openAccess_of_refusal {c : Caller} {a n : Nat} {bytes : List Byte} {mask : List Bool} {s : State} {r : Refusal}
    (h : accessRefusal s.par.maxLen a n = some r) : openAccess c a n bytes mask s = .refused r := by
  simp only [openAccess, h]

/-- A refusal of the access refuses the WRITE and the READ of as many bytes. -/
theorem access_refused {s : State} {a n : Nat} {payload : List Byte} {r : Refusal} (hlen : payload.length = n)
    (h : accessRefusal s.par.maxLen a n = some r) :
    exec (.write a payload) s = .refused r ∧ exec (.read a n) s = .refused r := by
  subst hlen
  exact ⟨openAccess_of_refusal h, openAccess_of_refusal h⟩

theorem accessRefusal_outOfRange {maxLen a n : Nat} (h : Config.lastAddr < a) :
    accessRefusal maxLen a n = some (.badRequest .addressOutOfRange) := if_pos h

theorem accessRefusal_empty {maxLen a n : Nat} (ha : a ≤ Config.lastAddr) (hn : n = 0) :
    accessRefusal maxLen a n = some (.badRequest .emptyPayload) := by
  rw [accessRefusal, if_neg (Nat.not_lt.2 ha), if_pos hn]

theorem accessRefusal_tooLong {maxLen a n : Nat} (ha : a ≤ Config.lastAddr) (hn : 1 ≤ n) (hmax : maxLen < n) :
    accessRefusal maxLen a n = some (.badRequest .tooLong) := by
  rw [accessRefusal, if_neg (Nat.not_lt.2 ha), if_neg (Nat.pos_iff_ne_zero.1 hn), if_pos hmax]

theorem accessRefusal_wrap {maxLen a n : Nat} (ha : a ≤ Config.lastAddr) (hn : 1 ≤ n) (hmax : n ≤ maxLen)
    (hwrap : Config.lastAddr < a + n - 1) : accessRefusal maxLen a n = some (.badRequest .pointerWrap) := by
  rw [accessRefusal, if_neg (Nat.not_lt.2 ha), if_neg (Nat.pos_iff_ne_zero.1 hn), if_neg (Nat.not_lt.2 hmax), if_pos hwrap]

/-! ### The obligations -/

/-- Settles O31: the device's own move keeps every location and where the next frame stores, and then there is at most one
frame, whose byte is the one the calls name. -/
theorem stepStoresOnlyAtThePointer : Obligations.StepStoresOnlyAtThePointer := by
  intro s t h
  have hcalls := (deviceMove_moved s).calls
  have hmoved : ∀ a, regRead (deviceMove s).dev a = regRead s.dev a := regRead_congr (deviceMove_moved s).regs
  have htarget := deviceMove_storeTarget s
  rcases step_deviceEffect h with hun | ⟨b', hframe⟩
  · have hsame : ∀ a, regRead t.dev a = regRead s.dev a := fun a => (hun.sameRegs a).trans (hmoved a)
    exact ⟨fun a _ => hsame a, fun f b _ hcall _ => absurd (hcalls ▸ hcall) (hun.calls_ne f b), fun _ a _ => hsame a⟩
  · obtain ⟨f', hsent⟩ := hframe.calls
    rw [hcalls] at hsent
    refine ⟨fun a hne => (hframe.sameRegsBut a (htarget ▸ hne)).trans (hmoved a), fun f b a hcall ha => ?_,
      fun hno => absurd hsent (hno f' b')⟩
    obtain ⟨-, rfl⟩ : f' = f ∧ b' = b := by simpa using List.append_cancel_left (hsent.symm.trans hcall)
    exact (regRead_of_regs_write (hframe.stores a (htarget.trans ha))).1

/-- Settles O32: a step of the reference environment is at most one frame of the reference device, and each phase answers as
its equation says. -/
theorem referenceDeviceFrames : Obligations.ReferenceDeviceFrames := by
  refine ⟨fun s t henv h => ?_, fun dummy b d => ⟨fun r e => referenceFrame_sensor, referenceFrame_of_idle,
    referenceFrame_of_exhausted, fun hphase => ?_, fun hphase => ?_⟩⟩
  · have heffect := step_deviceEffect h
    rw [deviceMove_of_not_oracle (by simp [henv])] at heffect
    rcases heffect with hun | ⟨b, hframe⟩
    · obtain ⟨phase, hdev⟩ := hun.device
      exact hdev ▸ ⟨rfl, rfl, rfl⟩
    · exact hframe.reference henv
  · exact ⟨d.latch b, referenceFrame_of_awaitCmd hphase, rfl, rfl, rfl, rfl, cmdAddr_toNat b⟩
  · cases hdir : d.dir with
    | true =>
      obtain ⟨hd, hmulti, -, hsingle, hnext, hlast⟩ : PointerMoved d d.advancePtr :=
        advancePtr_pointerMoved hphase rfl rfl rfl rfl
      exact ⟨_, _, referenceFrame_of_read hphase hdir, hd.trans hdir, hmulti, fun _ => ⟨rfl, advancePtr_regs d⟩,
        fun h => absurd h (by decide), hsingle, hnext, hlast⟩
    | false =>
      obtain ⟨hd, hmulti, -, hsingle, hnext, hlast⟩ : PointerMoved d (regWrite d d.ptr b).advancePtr :=
        advancePtr_pointerMoved hphase rfl rfl rfl rfl
      exact ⟨_, _, referenceFrame_of_write hphase hdir, hd.trans hdir, hmulti, fun h => absurd h (by decide),
        fun _ => ⟨rfl, regRead_of_regs_write (advancePtr_regs _)⟩, hsingle, hnext, hlast⟩

/-- Settles O33: the counters in closed form after `k` snapshots, and what each data move restarts. -/
theorem referenceDelaysCountDown : Obligations.ReferenceDelaysCountDown := by
  refine ⟨fun s henv => statusRead_of_reference henv, fun p => rfl, fun p k => ?_,
    fun s henv => dataRead_of_reference henv, fun s t b henv h => ?_⟩
  · rw [iterate_tick]
    exact ⟨sub_beq_zero _ _, fun hfull => by simp [referenceFlags, hfull, sub_beq_zero],
      fun hempty => by simp [referenceFlags, hempty]⟩
  · obtain ⟨r, d, -, rfl⟩ := (dataWrite_next_iff_of_reference henv).1 h
    exact receive_waits r _

/-- Settles O34: no effect of a step clears the overrun, and a frame raises it exactly when the receiver is full. -/
theorem unreadByteRaisesOverrun : Obligations.UnreadByteRaisesOverrun := by
  refine ⟨fun s t henv hovr h => ?_, fun s b henv htaken => ?_⟩
  · have henv' : t.env = .reference := (stepKeepsParameters s t h).2.trans henv
    have hovr' : t.per.ovr = true := by
      have heffect := step_deviceEffect h
      rw [deviceMove_of_not_oracle (by simp [henv])] at heffect
      rcases heffect with hun | ⟨b, hframe⟩
      · exact hun.ovr.trans hovr
      · exact hframe.ovr hovr
    exact ⟨henv', hovr', by simp only [shownFlags, henv'], hovr'⟩
  · obtain ⟨t, hwrite⟩ := dataWrite_answers (b := b) htaken
    obtain ⟨r, d, hframe, rfl⟩ := (dataWrite_next_iff_of_reference henv).1 hwrite
    refine ⟨r, d, _, hframe, hwrite, rfl, (receive_waits r _).1, fun hfull => ?_, fun hempty => ?_⟩
    · rw [replied_per, receive_of_full (p := (s.handOver b).per) hfull]
      exact ⟨rfl, rfl⟩
    · rw [replied_per, receive_of_empty (p := (s.handOver b).per) hempty]
      exact ⟨rfl, rfl, rfl⟩

/-- Settles O35: the frame's effects are its equations; a step is the device's own move, which only sets the pending condition,
and then at most one frame, which does to the three bits what `SensorFrame` says. -/
theorem sensorSideEffects : Obligations.SensorSideEffects := by
  refine ⟨fun s b henv => ?_, fun p k b d => ⟨followFrame_of_awaitCmd, followFrame_of_other, fun hphase => ?_⟩,
    fun s t h => ?_, fun p k b d hphase => ?_⟩
  · exact ⟨_, dataWrite_of_not_reference b henv, rfl, rfl, rfl⟩
  · obtain ⟨hdir, hmulti, hfirst, hsingle, hnext, hlast⟩ := followFrame_pointerMoved p k b hphase
    exact ⟨hdir, hmulti, hfirst, hsingle, hnext, hlast⟩
  · have hbits := step_sensorStep h
    refine ⟨hbits.sets, fun hne => ?_, fun hne => ?_, fun hset hclear => ?_⟩
    · obtain ⟨hon, ⟨hphase, hdir, hcalls⟩, hptr⟩ := hbits.powered.resolve_left hne
      exact ⟨hon, hphase, hdir, hptr, hcalls⟩
    · obtain ⟨⟨hphase, hdir, hcalls⟩, hptr⟩ := hbits.drdyEnabled.resolve_left hne
      exact ⟨hphase, hdir, hptr, hcalls⟩
    · obtain ⟨⟨hphase, hdir, hcalls⟩, hmeas⟩ := (hbits.clears hset).resolve_left (by simp [hclear])
      exact ⟨hphase, hdir, hmeas, hcalls⟩
  · cases hdir : d.dir with
    | true =>
      obtain ⟨hpow, hena, hrdy⟩ := followFrame_sensor_of_read p k b hphase hdir
      have hregs : (followFrame p k b d).regs = d.regs := by simp [followFrame_regs, hdir]
      simp only [Bool.true_eq_false, false_implies, true_and, forall_const]
      exact ⟨hregs, hena, hpow, fun hlast hfirst => by simp [hrdy, isMeasurement_last hlast, hlast, hfirst],
        fun hnot => by simp [hrdy, hnot]⟩
    | false =>
      obtain ⟨hpow, hena, hrdy⟩ := followFrame_sensor_of_write p k b hphase hdir
      have hregs : (followFrame p k b d).regs = (regWrite d d.ptr b).regs := by simp [followFrame_regs, hphase, hdir]
      simp only [Bool.false_eq_true, false_implies, true_and, and_true, forall_const]
      exact ⟨regRead_of_regs_write hregs, fun hptr => by simp [hpow, hptr], fun hptr => by simp [hpow, hptr],
        fun hptr => by simp [hena, hptr], hrdy,
        fun hptr ⟨cfg, hcfg, hb⟩ => by rw [hena, if_pos hptr, ← hb]; exact enablesDataReady_encInterrupt hcfg⟩

/-- Settles O59: the pair's word is the signed count, and a zero count scaled by a positive finite factor is zero. -/
theorem axisCountIsLittleEndianSigned : Obligations.AxisCountIsLittleEndianSigned := by
  have hdecode : ∀ (x0 x1 y0 y1 z0 z1 : Byte) (factor : Single),
      decodeMeasurement x0 x1 y0 y1 z0 z1 factor =
        { x := singleScale (x1.toInt * 256 + x0.toNat) factor
          y := singleScale (y1.toInt * 256 + y0.toNat) factor
          z := singleScale (z1.toInt * 256 + z0.toNat) factor } :=
    fun _ _ _ _ _ _ _ => by simp only [decodeMeasurement, axisValue, asSigned16_wordOf]
  refine ⟨asSigned16_wordOf, hdecode, fun sc => ?_⟩
  have hzero : singleScale ((0 : Byte).toInt * 256 + (0 : Byte).toNat) (radPerLsb sc) = 0x00000000 :=
    singleScale_zero (radPerLsb_range sc).2
  rw [hdecode, hzero]

/-- Settles O7: a frame is eight pulses, one for each bit of the two bytes in wire order. -/
theorem frameCarriesBothBytesMsbFirst : Obligations.FrameCarriesBothBytesMsbFirst := by
  intro m d
  have hlen : (wireBits m).length = (wireBits d).length := rfl
  rw [frameEdges_eq, sampledEdges_pulses, pulses_clock]
  refine ⟨fun i hi => wireBits_getElem? m hi, ofWireBits_wireBits m, rfl, ?_, ?_⟩
  · rw [List.map_map]
    exact List.map_fst_zip hlen.le
  · rw [List.map_map]
    exact List.map_snd_zip hlen.ge

/-- Settles O26: each case is one branch of the access check, made before anything else. -/
theorem accessRefusals : Obligations.AccessRefusals := by
  intro s a n payload hlen
  exact ⟨fun ha => access_refused hlen (accessRefusal_outOfRange ha),
    fun ha hn => access_refused hlen (accessRefusal_empty ha hn),
    fun ha hn hmax => access_refused hlen (accessRefusal_tooLong ha hn hmax),
    fun ha hn hmax hwrap => access_refused hlen (accessRefusal_wrap ha hn hmax hwrap)⟩

end Sys2Proof.Machine

/-! ## The command byte, the frames of the wire forms, and the transactions they open -/

namespace Sys2Proof.Machine

/-! ### The command byte and its fields (R48 to R51, R85) -/

@[simp] theorem cmdDir_encodeCmd (dir : Bool) (n : Nat) (a : RegAddr) : cmdDir (encodeCmd dir n a) = dir := by
  simp [cmdDir, encodeCmd]

@[simp] theorem cmdMulti_encodeCmd (dir : Bool) (n : Nat) (a : RegAddr) :
    cmdMulti (encodeCmd dir n a) = decide (1 < n) := by
  simp [cmdMulti, encodeCmd]

@[simp] theorem cmdAddr_encodeCmd (dir : Bool) (n : Nat) (a : RegAddr) : cmdAddr (encodeCmd dir n a) = a := by
  refine BitVec.eq_of_getElem_eq fun i hi => ?_
  interval_cases i <;> simp [cmdAddr, encodeCmd]

/-- A byte is the encoding of its own fields, for any count its multi-byte bit agrees with (R50). -/
theorem encodeCmd_fields {c : Byte} {n : Nat} (h : cmdMulti c = decide (1 < n)) :
    encodeCmd (cmdDir c) n (cmdAddr c) = c := by
  rw [encodeCmd, ← h]
  refine BitVec.eq_of_getElem_eq fun i hi => ?_
  interval_cases i <;> simp [cmdDir, cmdMulti, cmdAddr]

/-- The place values of the three fields. -/
theorem toNat_eq_fields (c : Byte) :
    c.toNat = (if cmdDir c then 0x80 else 0) + (if cmdMulti c then 0x40 else 0) + (cmdAddr c).toNat := by
  simp only [cmdDir, cmdMulti, BitVec.getLsbD, Nat.testBit_eq_decide_div_mod_eq, decide_eq_true_eq, cmdAddr_toNat]
  have hbyte : c.toNat < 256 := c.isLt
  split <;> split <;> omega

theorem encodeCmd_toNat (dir : Bool) (n : Nat) (a : RegAddr) :
    (encodeCmd dir n a).toNat = (if dir then 0x80 else 0) + (if 1 < n then 0x40 else 0) + a.toNat := by
  simpa using toNat_eq_fields (encodeCmd dir n a)

/-- The command byte of an access, as WRITE and READ are given their address (R51). -/
theorem encodeCmd_ofNat (dir : Bool) (n : Nat) {a : Nat} (ha : a ≤ Config.lastAddr) :
    encodeCmd dir n (BitVec.ofNat 6 a) = BitVec.ofNat 8 ((if dir then 0x80 else 0) + (if 1 < n then 0x40 else 0) + a) := by
  have haddr : (BitVec.ofNat 6 a).toNat = a := Nat.mod_eq_of_lt (Nat.lt_succ_of_le ha)
  calc encodeCmd dir n (BitVec.ofNat 6 a)
      = BitVec.ofNat 8 (encodeCmd dir n (BitVec.ofNat 6 a)).toNat := by simp
    _ = _ := by rw [encodeCmd_toNat, haddr]

/-- Under the mask of the forms a byte is the encoding of its two form bits at address 0 (R54). -/
theorem and_formMask (c : Byte) : c &&& 0xC0 = encodeCmd (cmdDir c) (1 + (cmdMulti c).toNat) 0 := by
  have hmulti : decide (1 < 1 + (cmdMulti c).toNat) = cmdMulti c := by cases cmdMulti c <;> rfl
  rw [encodeCmd, hmulti]
  refine BitVec.eq_of_getElem_eq fun i hi => ?_
  interval_cases i <;> simp [cmdDir, cmdMulti]

/-- Under the address mask a byte is its address (R54). -/
theorem and_addrMask_toNat (c : Byte) : (c &&& 0x3F).toNat = (cmdAddr c).toNat := by
  rw [cmdAddr_toNat, BitVec.toNat_and]
  exact Nat.and_two_pow_sub_one_eq_mod c.toNat 6

/-! ### The frames of the wire forms (R52, R56, R88 to R91) -/

/-! Each form's frames are those of the WRITE or READ of its operands. -/

theorem encode_wr1 (a : RegAddr) (p : Byte) : encode (.wr1 a p) = writeFrames a [p] := by
  simp [encode, writeFrames, encodeCmd]

theorem encode_wrm (a : RegAddr) {ps : List Byte} (h : 2 ≤ ps.length) : encode (.wrm a ps) = writeFrames a ps := by
  simp [encode, writeFrames, encodeCmd, Nat.lt_of_succ_le h]

theorem encode_rd1 (a : RegAddr) : encode (.rd1 a) = readFrames a 1 := by
  simp [encode, readFrames, encodeCmd]

theorem encode_rdm (a : RegAddr) {n : Nat} (h : 2 ≤ n) : encode (.rdm a n) = readFrames a n := by
  simp [encode, readFrames, encodeCmd, Nat.lt_of_succ_le h]

/-- The wire form with a given direction and address that carries these data bytes: single-byte when there is one. A read form
has only their number. -/
def wireForm : Bool → RegAddr → List Byte → Instr
  | false, a, [d] => .wr1 a d
  | false, a, data => .wrm a data
  | true, a, [_] => .rd1 a
  | true, a, data => .rdm a data.length

theorem wireForm_isWire (dir : Bool) (a : RegAddr) (data : List Byte) : (wireForm dir a data).isWire = true := by
  fun_cases wireForm dir a data <;> rfl

/-- The data bytes a form puts on the wire: a read's are fillers (R87). -/
def wireData (dir : Bool) (data : List Byte) : List Byte :=
  if dir then List.replicate data.length Config.fill else data

theorem wireData_write (data : List Byte) : wireData false data = data := rfl

@[simp] theorem wireData_length (dir : Bool) (data : List Byte) : (wireData dir data).length = data.length := by
  cases dir <;> simp [wireData]

/-- Fillers stand for a read's data bytes: its form has only their number (R87). -/
theorem wireForm_wireData (dir : Bool) (a : RegAddr) (data : List Byte) :
    wireForm dir a (wireData dir data) = wireForm dir a data := by
  match dir, data with
  | false, _ => rfl
  | true, [] => rfl
  | true, [_] => rfl
  | true, _ :: _ :: _ => simp [wireForm, wireData, List.replicate_succ]

/-- The frames of a form: the command byte of its fields, then its data bytes (R52). -/
theorem encode_wireForm (dir : Bool) (a : RegAddr) {data : List Byte} (h : data ≠ []) :
    encode (wireForm dir a data) = encodeCmd dir data.length a :: wireData dir data := by
  match dir, data with
  | false, [d] => exact encode_wr1 a d
  | false, d :: e :: ds => exact encode_wrm a (Nat.le_add_left 2 ds.length)
  | true, [d] => exact encode_rd1 a
  | true, d :: e :: ds => exact encode_rdm a (Nat.le_add_left 2 ds.length)

/-- Every form the block can be asked for is of some direction, address and data bytes, one at least (R50, R55). -/
theorem exists_wireForm {maxLen : Nat} {i : Instr} (hwire : i.isWire = true) (hwf : i.wellFormed maxLen = true) :
    ∃ dir a data, data ≠ [] ∧ i = wireForm dir a data := by
  cases i with
  | wr1 a p => exact ⟨false, a, [p], by simp, rfl⟩
  | wrm a ps =>
    match ps with
    | [] => simp [Instr.wellFormed, Instr.check] at hwf
    | [_] => simp [Instr.wellFormed, Instr.check] at hwf
    | d :: e :: ds => exact ⟨false, a, d :: e :: ds, by simp, rfl⟩
  | rd1 a => exact ⟨true, a, [0], by simp, rfl⟩
  | rdm a n =>
    match n with
    | 0 => simp [Instr.wellFormed, Instr.check] at hwf
    | 1 => simp [Instr.wellFormed, Instr.check] at hwf
    | n + 2 => exact ⟨true, a, List.replicate (n + 2) 0, by simp, by simp [wireForm, List.replicate_succ]⟩
  | selectAssert => cases hwire
  | selectDeassert => cases hwire
  | attemptSend => cases hwire
  | attemptReceive => cases hwire
  | exchange => cases hwire
  | write => cases hwire
  | read => cases hwire

/-- Frames decode when the multi-byte bit says whether there is more than one data byte, and then to the form of their fields;
which way it disagrees names the rejection (R54 to R56; log 22). -/
theorem decodeFrames_cons (c : Byte) {data : List Byte} (h : data ≠ []) :
    decodeFrames (c :: data) =
      if cmdMulti c = decide (1 < data.length) then .ok (wireForm (cmdDir c) (cmdAddr c) data)
      else .error (if cmdMulti c then .multiWithOne else .singleWithMany) := by
  match data with
  | [d] => cases hdir : cmdDir c <;> cases hmulti : cmdMulti c <;> simp [decodeFrames, decodeCommand, hdir, hmulti, wireForm]
  | d :: e :: ds =>
    cases hdir : cmdDir c <;> cases hmulti : cmdMulti c <;> simp [decodeFrames, decodeCommand, hdir, hmulti, wireForm]

theorem decodeFrames_eq_ok {bs : List Byte} {i : Instr} :
    decodeFrames bs = .ok i ↔
      ∃ c data, bs = c :: data ∧ data ≠ [] ∧ cmdMulti c = decide (1 < data.length) ∧
        i = wireForm (cmdDir c) (cmdAddr c) data := by
  match bs with
  | [] => simp [decodeFrames]
  | [c] => simp [decodeFrames]
  | c :: d :: ds =>
    rw [decodeFrames_cons c (List.cons_ne_nil d ds)]
    constructor
    · intro h
      split at h
      · next hmulti => cases h; exact ⟨c, d :: ds, rfl, by simp, hmulti, rfl⟩
      · cases h
    · rintro ⟨c, data, ⟨⟩, -, hmulti, rfl⟩
      rw [if_pos hmulti]

/-- Frames decode exactly when the multi-byte bit fits the number of data bytes (R55). -/
theorem decodeFrames_isOk {c : Byte} {data : List Byte} :
    (∃ i, decodeFrames (c :: data) = .ok i) ↔ data ≠ [] ∧ cmdMulti c = decide (1 < data.length) := by
  simp [decodeFrames_eq_ok]

/-! ### The transactions of WRITE, READ and the wire forms (R86 to R91) -/

theorem exec_write_answers {s : State} {a : Nat} {p : List Byte} (h : readyToOpen s)
    (ha : accessAdmitted s.par.maxLen a p.length) :
    exec (.write a p) s =
      .next (openedState .write (writeFrames (BitVec.ofNat 6 a) p) (writeKeep p.length) s) := by
  have ⟨_, _, hmax, _⟩ := ha
  exact openAccess_answers h ha (by simp) (by simpa using hmax)

theorem exec_read_answers {s : State} {a n : Nat} (h : readyToOpen s) (ha : accessAdmitted s.par.maxLen a n) :
    exec (.read a n) s = .next (openedState (.read n) (readFrames (BitVec.ofNat 6 a) n) (readKeep n) s) := by
  have ⟨_, _, hmax, _⟩ := ha
  exact openAccess_answers h ha (by simp) (by simpa using hmax)

/-- A register address is in range, so WRITE takes it as it is. -/
theorem exec_write_toNat (s : State) (a : RegAddr) (ps : List Byte) :
    exec (.write a.toNat ps) s =
      openAccess .write a.toNat ps.length (writeFrames a ps) (writeKeep ps.length) s := by
  simp [exec, execWrite]

theorem exec_read_toNat (s : State) (a : RegAddr) (n : Nat) :
    exec (.read a.toNat n) s = openAccess (.read n) a.toNat n (readFrames a n) (readKeep n) s := by
  simp [exec, execRead]

theorem whenMulti_of_lt {n : Nat} (h : n < 2) (o : Out State) : whenMulti n o = .refused (.badRequest .formMismatch) :=
  if_pos h

theorem whenMulti_of_le {n : Nat} (h : 2 ≤ n) (o : Out State) : whenMulti n o = o := if_neg (Nat.not_lt.2 h)

theorem exec_wr1_eq_write (s : State) (a : RegAddr) (p : Byte) : exec (.wr1 a p) s = exec (.write a.toNat [p]) s := by
  rw [exec_write_toNat, ← encode_wr1]; rfl

theorem exec_wrm_eq_write (s : State) (a : RegAddr) {ps : List Byte} (h : 2 ≤ ps.length) :
    exec (.wrm a ps) s = exec (.write a.toNat ps) s := by
  rw [exec_write_toNat, ← encode_wrm a h]; exact whenMulti_of_le h _

theorem exec_rd1_eq_read (s : State) (a : RegAddr) : exec (.rd1 a) s = exec (.read a.toNat 1) s := by
  rw [exec_read_toNat, ← encode_rd1]; rfl

theorem exec_rdm_eq_read (s : State) (a : RegAddr) {n : Nat} (h : 2 ≤ n) :
    exec (.rdm a n) s = exec (.read a.toNat n) s := by
  rw [exec_read_toNat, ← encode_rdm a h]; exact whenMulti_of_le h _

/-! ### The obligations -/

/-- Settles O5: the frames of a form carry its own fields and as many data bytes, a write's the very ones. -/
theorem wireFormsDecodeToThemselves : Obligations.WireFormsDecodeToThemselves := by
  intro maxLen i hwire hwf
  obtain ⟨dir, a, data, hdata, rfl⟩ := exists_wireForm hwire hwf
  have hframes : wireData dir data ≠ [] := by
    rwa [← List.length_pos_iff, wireData_length, List.length_pos_iff]
  rw [encode_wireForm dir a hdata, decodeFrames_cons _ hframes]
  simp [wireForm_wireData]

/-- Settles O6: frames that decode have a multi-byte bit that fits their count, so encoding the form they decode to gives their
command byte back. -/
theorem decodedFramesAreOfTheirForm : Obligations.DecodedFramesAreOfTheirForm := by
  refine ⟨fun bs i h => ?_, fun c data => ?_⟩
  · obtain ⟨c, data, rfl, hdata, hmulti, rfl⟩ := decodeFrames_eq_ok.1 h
    rw [encode_wireForm _ _ hdata, encodeCmd_fields hmulti]
    refine ⟨wireForm_isWire _ _ _, by simp, rfl, fun hwrite => ?_⟩
    have hdir : cmdDir c = false := hwrite
    rw [hdir, wireData_write]
  · refine ⟨?_, ?_, fun hmulti hone => ?_, fun hsingle hmany => ?_⟩
    · rw [decodeFrames_isOk, Bool.eq_iff_iff, decide_eq_true_eq, cmdMulti]
    · rintro rfl; rfl
    · have hdata : data ≠ [] := List.ne_nil_of_length_pos (by omega)
      have hbit : cmdMulti c = true := hmulti
      simp [decodeFrames_cons c hdata, hbit, hone]
    · have hdata : data ≠ [] := List.ne_nil_of_length_pos (by omega)
      have hbit : cmdMulti c = false := hsingle
      simp [decodeFrames_cons c hdata, hbit, hmany]

/-- Settles O1: under the mask of the forms a byte is its two form bits, and each of their four values is one row. -/
theorem commandByteIsExactlyOneForm : Obligations.CommandByteIsExactlyOneForm := by
  intro c
  refine ⟨?_, (and_addrMask_toNat c).symm⟩
  simp only [decodeCommand, List.filter_cons, List.filter_nil, and_formMask]
  cases cmdDir c <;> cases cmdMulti c <;> rfl

/-- Settles O3: a count of one more than the multi-byte bit gives that bit back. -/
theorem commandByteReencodes : Obligations.CommandByteReencodes :=
  fun c => encodeCmd_fields (by cases cmdMulti c <;> rfl)

/-- Settles O4: the frames of each example are the form's own, and a form is read back from them. -/
theorem sourceExamplesEncodeAndDecode : Obligations.SourceExamplesEncodeAndDecode :=
  have hdecode := wireFormsDecodeToThemselves 64
  ⟨rfl, rfl, hdecode (.rd1 0x27) rfl rfl, hdecode (.rdm 0x28 6) rfl rfl, hdecode (.wr1 0x23 0x10) rfl rfl,
    hdecode (.wrm 0x20 [0x0F, 0x00]) rfl rfl⟩

/-- Settles O24: an admitted address goes into the command byte as it is. -/
theorem writeOpensItsTransaction : Obligations.WriteOpensItsTransaction := by
  intro s a payload hready hadm
  have ⟨haddr, _⟩ := hadm
  rw [exec_write_answers hready hadm, writeFrames, encodeCmd_ofNat _ _ haddr]
  simp [writeKeep]

/-- Settles O25: the same for the READ and its fillers. -/
theorem readOpensItsTransaction : Obligations.ReadOpensItsTransaction := by
  intro s a n hready hadm
  have ⟨haddr, _⟩ := hadm
  have hbits : (0x80 + if 1 < n then 0x40 else 0) = if 1 < n then 0xC0 else 0x80 := by split <;> rfl
  rw [exec_read_answers hready hadm, readFrames, encodeCmd_ofNat _ _ haddr, if_pos rfl, hbits]
  rfl

/-- Settles O27: a wire form is the WRITE or READ of its operands, once it has the data bytes its multi-byte bit asks for. -/
theorem wireFormsOpenTheirFrames : Obligations.WireFormsOpenTheirFrames := by
  refine ⟨fun s a ps n => ⟨fun h => whenMulti_of_lt h _, fun h => whenMulti_of_lt h _⟩, fun s a hready =>
    ⟨fun p hadm => ?_, fun ps hlen hadm => ?_, fun hadm => ?_, fun n hn hadm => ?_⟩⟩
  · rw [exec_wr1_eq_write, writeOpensItsTransaction s _ [p] hready hadm]
    simp
  · rw [exec_wrm_eq_write s a hlen, writeOpensItsTransaction s _ ps hready hadm, if_pos (show 1 < ps.length from hlen)]
  · rw [exec_rd1_eq_read, readOpensItsTransaction s _ 1 hready hadm]
    simp
  · rw [exec_rdm_eq_read s a hn, readOpensItsTransaction s _ n hready hadm, if_pos (show 1 < n from hn)]

end Sys2Proof.Machine

/-! ## The attempts requested directly, the retry at one position, and the close -/

namespace Sys2Proof.Machine

/-! ### The classification of a snapshot (R65, R67) -/

theorem classify_of_overrun {f : Snapshot} (ready : Bool) (ho : f.overrun = true) :
    classify f ready = .fault .overrun := by simp [classify, ho]

theorem classify_of_modeFault {f : Snapshot} (ready : Bool) (ho : f.overrun = false) (hm : f.modeFault = true) :
    classify f ready = .fault .modeFault := by simp [classify, ho, hm]

theorem classify_of_checksumError {f : Snapshot} (ready : Bool) (ho : f.overrun = false) (hm : f.modeFault = false)
    (hc : f.checksumError = true) : classify f ready = .fault .checksumError := by simp [classify, ho, hm, hc]

/-- Without a fault flag the ready flag decides. -/
theorem classify_of_no_fault {f : Snapshot} (ready : Bool) (ho : f.overrun = false) (hm : f.modeFault = false)
    (hc : f.checksumError = false) : classify f ready = if ready then .ready () else .notYetReady := by
  simp [classify, ho, hm, hc]

/-- A fault flag is judged alike by both attempts, whatever the ready flags are. -/
theorem attempts_of_fault {f : Snapshot} {k : FaultKind} (h : ∀ ready, classify f ready = .fault k) :
    (classifySend f, classifyReceive f) = (.fault k, .fault k) :=
  Prod.ext (h f.txReady) (h f.rxReady)

theorem attempts_of_no_fault {f : Snapshot} (ho : f.overrun = false) (hm : f.modeFault = false)
    (hc : f.checksumError = false) :
    (classifySend f, classifyReceive f) =
      (if f.txReady then .ready () else .notYetReady, if f.rxReady then .ready () else .notYetReady) :=
  Prod.ext (classify_of_no_fault f.txReady ho hm hc) (classify_of_no_fault f.rxReady ho hm hc)

/-! ### What the capability primitives leave of the peripheral and the script (R21, R23, R161, R166) -/

/-- A StatusRead moves no byte; it takes one draw of the oracle, or one snapshot of the script. -/
structure StatusReadKeeps (s t : State) : Prop where
  txByte : t.per.txByte = s.per.txByte
  rxByte : t.per.rxByte = s.per.rxByte
  rxFull : t.per.rxFull = s.per.rxFull
  draws : t.draws = if s.env = .oracle then s.draws + 1 else s.draws
  bytes : t.script.bytes = s.script.bytes
  snapshots : s.env = .scripted → t.script.snapshots = s.script.snapshots.tail

theorem statusRead_keeps {s t : State} (h : statusRead s = .next t) : StatusReadKeeps s t := by
  unfold statusRead at h
  split at h <;> rename_i henv
  · cases h
    exact ⟨rfl, rfl, rfl, by simp [henv], rfl, by simp [henv]⟩
  · split at h <;> rename_i hscript <;> cases h
    exact ⟨rfl, rfl, rfl, by simp [henv], rfl, fun _ => by simp [hscript]⟩
  · cases h
    exact ⟨rfl, rfl, rfl, by simp [henv], rfl, by simp [henv]⟩

/-- The reference device's reply goes to the receive side alone. -/
theorem receive_flags (r : Byte) (p : Peripheral) : (p.receive r).flags = p.flags := by
  unfold Peripheral.receive; split <;> rfl

theorem dataWrite_flags {b : Byte} {s t : State} (h : dataWrite b s = .next t) : t.per.flags = s.per.flags := by
  by_cases henv : s.env = .reference
  · obtain ⟨r, d, -, rfl⟩ := (dataWrite_next_iff_of_reference henv).1 h
    exact receive_flags r _
  · rw [dataWrite_of_not_reference b henv] at h
    cases h
    rfl

theorem frameTaken_congr {s t : State} (henv : t.env = s.env) (hdev : t.dev = s.dev) : frameTaken t = frameTaken s := by
  simp only [frameTaken, henv, hdev]

/-- Only the reference device refuses a frame: unselected, or past its last address (R163, R164). -/
theorem dataWrite_of_not_taken {s : State} (b : Byte) (h : frameTaken s = false) :
    dataWrite b s = .refused (if s.dev.phase = .idle then .frameWhileIdle else .badRequest .pointerWrap) := by
  have henv : s.env = .reference := by
    cases henv : s.env <;> simp [frameTaken, henv] at h ⊢
  simp only [frameTaken, henv] at h
  cases hphase : s.dev.phase with
  | idle => simp [dataWrite, henv, referenceFrame_of_idle hphase]
  | exhausted => simp [dataWrite, henv, referenceFrame_of_exhausted hphase]
  | awaitCmd => simp [hphase] at h
  | data => simp [hphase] at h

/-- What a DataRead leaves of the peripheral; the reference one's receiver is empty after it (R162). -/
structure DataReadKeeps (s t : State) : Prop where
  txByte : t.per.txByte = s.per.txByte
  flags : t.per.flags = s.per.flags
  rxFull : s.env = .reference → t.per.rxFull = false

theorem dataRead_keeps {s t : State} (h : dataRead s = .next t) : DataReadKeeps s t := by
  unfold dataRead at h
  split at h <;> rename_i henv
  · cases h
    exact ⟨rfl, rfl, by simp [henv]⟩
  · split at h <;> cases h
    exact ⟨rfl, rfl, by simp [henv]⟩
  · cases h
    exact ⟨rfl, rfl, fun _ => rfl⟩

/-- After the StatusRead of its attempt a DataRead finds the byte shown. -/
theorem dataRead_answers {s s1 : State} {v : Byte} (hread : statusRead s = .next s1) (h : shownByte s = some v) :
    ∃ t, dataRead s1 = .next t ∧ t.per.rxByte = v := by
  have hkeeps := statusRead_keeps hread
  have henv1 : s1.env = s.env := (statusRead_next hread).bus.env
  cases henv : s.env with
  | oracle =>
    have hdraws : s1.draws = s.draws + 1 := by simp [hkeeps.draws, henv]
    simp only [shownByte, henv, Option.some.injEq] at h
    refine ⟨_, by simp only [dataRead, henv1, henv]; rfl, ?_⟩
    simpa [hdraws] using h
  | scripted =>
    simp only [shownByte, henv, List.head?_eq_some_iff] at h
    obtain ⟨vs, hbytes⟩ := h
    exact ⟨_, by simp only [dataRead, henv1, henv, hkeeps.bytes, hbytes]; rfl, rfl⟩
  | reference =>
    simp only [shownByte, henv, Option.some.injEq] at h
    exact ⟨_, dataRead_of_reference (henv1.trans henv), hkeeps.rxByte.trans h⟩

/-! ### The attempts, by the snapshot their StatusRead finds (R63, R64, R68) -/

theorem attemptSend_of_ready {s s1 : State} (b : Byte) (hread : statusRead s = .next s1)
    (h : classifySend s1.per.flags = .ready ()) :
    attemptSend b s = andThen (dataWrite b s1) fun s2 => .next (.ready (), s2) := by
  simp only [attemptSend, hread, andThen_next_left, h]

theorem attemptSend_of_not_ready {s s1 : State} (b : Byte) (hread : statusRead s = .next s1)
    (h : classifySend s1.per.flags ≠ .ready ()) : attemptSend b s = .next (classifySend s1.per.flags, s1) := by
  simp only [attemptSend, hread, andThen_next_left]
  cases hc : classifySend s1.per.flags with
  | ready => exact absurd hc h
  | notYetReady => rfl
  | fault k => rfl

/-- The outcome of an ATTEMPT_RECEIVE that finds the snapshot `f` and, when it is ready, the byte `v`. -/
def receiveOutcome (f : Snapshot) (v : Byte) : BusOutcome Byte :=
  match classifyReceive f with
  | .ready _ => .ready v
  | .notYetReady => .notYetReady
  | .fault k => .fault k

theorem receiveOutcome_of_ready {f : Snapshot} (v : Byte) (h : classifyReceive f = .ready ()) :
    receiveOutcome f v = .ready v := by simp only [receiveOutcome, h]

theorem receiveOutcome_of_notYetReady {f : Snapshot} (v : Byte) (h : classifyReceive f = .notYetReady) :
    receiveOutcome f v = .notYetReady := by simp only [receiveOutcome, h]

theorem receiveOutcome_of_fault {f : Snapshot} {k : FaultKind} (v : Byte) (h : classifyReceive f = .fault k) :
    receiveOutcome f v = .fault k := by simp only [receiveOutcome, h]

theorem attemptReceive_of_ready {s s1 : State} (hread : statusRead s = .next s1)
    (h : classifyReceive s1.per.flags = .ready ()) :
    attemptReceive s = andThen (dataRead s1) fun s2 => .next (.ready s2.per.rxByte, s2) := by
  simp only [attemptReceive, hread, andThen_next_left, h]

/-- Without the ready flag the byte the environment would show does not matter. -/
theorem attemptReceive_of_not_ready {s s1 : State} (v : Byte) (hread : statusRead s = .next s1)
    (h : classifyReceive s1.per.flags ≠ .ready ()) :
    attemptReceive s = .next (receiveOutcome s1.per.flags v, s1) := by
  simp only [attemptReceive, hread, andThen_next_left]
  cases hc : classifyReceive s1.per.flags with
  | ready => exact absurd hc h
  | notYetReady => rw [receiveOutcome_of_notYetReady v hc]
  | fault k => rw [receiveOutcome_of_fault v hc]

/-! ### ATTEMPT_SEND, complete (R63, R66, R68) -/

/-- What an ATTEMPT_SEND of `b` that finds the snapshot `f` does to all but the host. -/
structure SendDone (b : Byte) (f : Snapshot) (s t : State) : Prop where
  transactor : SameTransactor s t
  env : t.env = s.env
  par : t.par = s.par
  flags : t.per.flags = f
  calls : t.calls = s.calls ++ (if classifySend f = .ready () then [.statusRead f, .dataWrite b] else [.statusRead f])
  sent : classifySend f = .ready () → t.per.txByte = b
  unsent : classifySend f ≠ .ready () → t.per.txByte = s.per.txByte ∧ t.dev = s.dev
  reference : classifySend f = .ready () → s.env = .reference →
    ∃ r, referenceFrame s.par.dummy b s.dev = .next (r, t.dev)
  follows : classifySend f = .ready () → s.env ≠ .reference →
    t.dev = followFrame s.par (if s.env = .oracle then s.draws + 1 else s.draws) b s.dev
  others : SameRegsBut (if classifySend f = .ready () then storeTarget s else none) s t
  stores : ∀ a, classifySend f = .ready () → storeTarget s = some a → regRead t.dev a = b

/-- No byte moves: the attempt is its StatusRead. -/
theorem sendDone_of_not_ready {b : Byte} {s t : State} (hread : statusRead s = .next t)
    (h : classifySend t.per.flags ≠ .ready ()) : SendDone b t.per.flags s t where
  transactor := (statusRead_next hread).bus.transactor
  env := (statusRead_next hread).bus.env
  par := (statusRead_next hread).bus.par
  flags := rfl
  calls := by rw [if_neg h]; exact (statusRead_next hread).calls
  sent := fun hready => absurd hready h
  unsent := fun _ => ⟨(statusRead_keeps hread).txByte, (statusRead_next hread).dev⟩
  reference := fun hready => absurd hready h
  follows := fun hready => absurd hready h
  others := fun a _ => (statusRead_next hread).unframed.sameRegs a
  stores := fun _ hready => absurd hready h

/-- The byte moves: a StatusRead, and then the frame. -/
theorem sendDone_of_ready {b : Byte} {s s1 t : State} (hread : statusRead s = .next s1)
    (h : classifySend s1.per.flags = .ready ()) (hwrite : dataWrite b s1 = .next t) : SendDone b s1.per.flags s t := by
  have hr := statusRead_next hread
  have hw := dataWrite_next hwrite
  have hframed := framed_of_statusRead_dataWrite hread hwrite
  refine ⟨hr.bus.transactor.trans hw.bus.transactor, hw.bus.env.trans hr.bus.env, hw.bus.par.trans hr.bus.par,
    dataWrite_flags hwrite, ?calls, fun _ => hw.txByte, fun hne => absurd h hne, fun _ henv => ?reference,
    fun _ henv => ?follows, ?others, fun a _ ha => (regRead_of_regs_write (hframed.stores a ha)).1⟩
  case calls => simp [h, hw.calls, hr.calls]
  case reference =>
    obtain ⟨r, d, hframe, rfl⟩ := (dataWrite_next_iff_of_reference (hr.bus.env.trans henv)).1 hwrite
    exact ⟨r, by rw [← hr.bus.par, ← hr.dev]; exact hframe⟩
  case follows =>
    rw [dataWrite_of_not_reference b (hr.bus.env ▸ henv)] at hwrite
    cases hwrite
    simp [hr.bus.par, hr.dev, (statusRead_keeps hread).draws]
  case others => rw [if_pos h]; exact hframed.sameRegsBut

/-- R63, R66, R68: when the environment has flags to show, and the device takes the frame of a byte that is sent. -/
theorem attemptSend_completes {b : Byte} {s : State} {f : Snapshot} (hshown : shownFlags s = some f)
    (htaken : classifySend f = .ready () → frameTaken s = true) :
    ∃ t, attemptSend b s = .next (classifySend f, t) ∧ t.host = s.host ∧ SendDone b f s t := by
  obtain ⟨s1, hread, rfl⟩ := statusRead_answers hshown
  have hr := statusRead_next hread
  by_cases hready : classifySend s1.per.flags = .ready ()
  · obtain ⟨t, hwrite⟩ := dataWrite_answers (b := b) ((frameTaken_congr hr.bus.env hr.dev).trans (htaken hready))
    refine ⟨t, ?_, (dataWrite_next hwrite).bus.host.trans hr.bus.host, sendDone_of_ready hread hready hwrite⟩
    rw [attemptSend_of_ready b hread hready, hwrite, andThen_next_left, hready]
  · exact ⟨s1, attemptSend_of_not_ready b hread hready, hr.bus.host, sendDone_of_not_ready hread hready⟩

/-- R163, R164: ready, with a reference device that takes no frame. -/
theorem attemptSend_of_not_taken {b : Byte} {s : State} {f : Snapshot} (hshown : shownFlags s = some f)
    (hready : classifySend f = .ready ()) (htaken : frameTaken s = false) :
    attemptSend b s = .refused (if s.dev.phase = .idle then .frameWhileIdle else .badRequest .pointerWrap) := by
  obtain ⟨s1, hread, rfl⟩ := statusRead_answers hshown
  have hr := statusRead_next hread
  rw [attemptSend_of_ready b hread hready,
    dataWrite_of_not_taken b ((frameTaken_congr hr.bus.env hr.dev).trans htaken), hr.dev, andThen_refused_left]

/-- What the host does afterwards changes nothing of it. -/
theorem SendDone.before {b : Byte} {f : Snapshot} {s t u : State} (h : SendDone b f s t) (g : HostOnly t u) :
    SendDone b f s u where
  transactor := h.transactor.trans g.transactor
  env := g.env.trans h.env
  par := g.par.trans h.par
  flags := g.per ▸ h.flags
  calls := g.calls.trans h.calls
  sent := g.per ▸ h.sent
  unsent := g.per ▸ g.dev ▸ h.unsent
  reference := g.dev ▸ h.reference
  follows := g.dev ▸ h.follows
  others := fun a ha => g.dev ▸ h.others a ha
  stores := g.dev ▸ h.stores

/-! ### ATTEMPT_RECEIVE, complete (R64, R66, R68) -/

/-- What an ATTEMPT_RECEIVE with the snapshot `f` and the outcome `o` does to all but the host. -/
structure ReceiveDone (f : Snapshot) (o : BusOutcome Byte) (s t : State) : Prop where
  transactor : SameTransactor s t
  env : t.env = s.env
  par : t.par = s.par
  dev : t.dev = s.dev
  txByte : t.per.txByte = s.per.txByte
  flags : t.per.flags = f
  taken : ∀ v, o = .ready v → t.per.rxByte = v ∧ (s.env = .reference → t.per.rxFull = false) ∧
    t.calls = s.calls ++ [.statusRead f, .dataRead v]
  untaken : (∀ v, o ≠ .ready v) → t.per.rxByte = s.per.rxByte ∧ t.per.rxFull = s.per.rxFull ∧
    t.calls = s.calls ++ [.statusRead f]

theorem receiveDone_of_not_ready {s t : State} {o : BusOutcome Byte} (hread : statusRead s = .next t)
    (h : ∀ v, o ≠ .ready v) : ReceiveDone t.per.flags o s t :=
  have hr := statusRead_next hread
  have hk := statusRead_keeps hread
  ⟨hr.bus.transactor, hr.bus.env, hr.bus.par, hr.dev, hk.txByte, rfl, fun v hv => absurd hv (h v),
    fun _ => ⟨hk.rxByte, hk.rxFull, hr.calls⟩⟩

theorem receiveDone_of_ready {s s1 t : State} (hread : statusRead s = .next s1) (hmove : dataRead s1 = .next t) :
    ReceiveDone s1.per.flags (.ready t.per.rxByte) s t := by
  have hr := statusRead_next hread
  have hd := dataRead_next hmove
  have hk := dataRead_keeps hmove
  refine ⟨hr.bus.transactor.trans hd.bus.transactor, hd.bus.env.trans hr.bus.env, hd.bus.par.trans hr.bus.par,
    hd.dev.trans hr.dev, hk.txByte.trans (statusRead_keeps hread).txByte, hk.flags, ?_, fun h => absurd rfl (h _)⟩
  intro v hv
  cases hv
  exact ⟨rfl, fun henv => hk.rxFull (hr.bus.env.trans henv), by rw [hd.calls, hr.calls]; simp⟩

/-- R64, R66, R68: when the environment has flags to show, and a byte if they are ready. -/
theorem attemptReceive_completes {s : State} {f : Snapshot} {v : Byte} (hshown : shownFlags s = some f)
    (hbyte : classifyReceive f = .ready () → shownByte s = some v) :
    ∃ t, attemptReceive s = .next (receiveOutcome f v, t) ∧ t.host = s.host ∧
      ReceiveDone f (receiveOutcome f v) s t := by
  obtain ⟨s1, hread, rfl⟩ := statusRead_answers hshown
  have hhost := (statusRead_next hread).bus.host
  by_cases hready : classifyReceive s1.per.flags = .ready ()
  · obtain ⟨t, hmove, rfl⟩ := dataRead_answers hread (hbyte hready)
    rw [receiveOutcome_of_ready _ hready]
    refine ⟨t, ?_, (dataRead_next hmove).bus.host.trans hhost, receiveDone_of_ready hread hmove⟩
    rw [attemptReceive_of_ready hread hready, hmove, andThen_next_left]
  · refine ⟨s1, attemptReceive_of_not_ready v hread hready, hhost, receiveDone_of_not_ready hread ?_⟩
    cases hc : classifyReceive s1.per.flags with
    | ready => exact absurd hc hready
    | notYetReady => simp [receiveOutcome_of_notYetReady v hc]
    | fault k => simp [receiveOutcome_of_fault v hc]

theorem ReceiveDone.before {f : Snapshot} {o : BusOutcome Byte} {s t u : State} (h : ReceiveDone f o s t)
    (g : HostOnly t u) : ReceiveDone f o s u where
  transactor := h.transactor.trans g.transactor
  env := g.env.trans h.env
  par := g.par.trans h.par
  dev := g.dev.trans h.dev
  txByte := g.per ▸ h.txByte
  flags := g.per ▸ h.flags
  taken := g.per ▸ g.calls ▸ h.taken
  untaken := g.per ▸ g.calls ▸ h.untaken

/-! ### The attempts requested directly (R167) -/

theorem exec_attemptSend_of_not_busy {s : State} (b : Byte) (h : s.busy = false) :
    exec (.attemptSend b) s =
      andThen (attemptSend b s) fun x => .next (x.2.deliver x.2.host.context (.send x.1)) :=
  whenIdle_of_not_busy h _

theorem exec_attemptReceive_of_not_busy {s : State} (h : s.busy = false) :
    exec .attemptReceive s =
      andThen (attemptReceive s) fun x => .next (x.2.deliver x.2.host.context (.receive x.1)) :=
  whenIdle_of_not_busy h _

theorem thread_congr {s t : State} (h : t.host = s.host) (c : Context) : t.thread c = s.thread c := by
  cases c <;> simp only [State.thread, h]

/-- What a result returned makes of the host depends on the host alone. -/
theorem deliver_host_congr {s t : State} (h : t.host = s.host) (c : Context) (r : Result) :
    (t.deliver c r).host = (s.deliver c r).host := by
  unfold State.deliver
  rw [thread_congr h c]
  cases c <;> simp only [State.setThread, h]

/-! ### The retry at one position (R74, R75, R81) -/

/-- The sequencer stands at position `i`, before an attempt that judges its snapshots by `judge`. -/
def Awaits (judge : Snapshot → BusOutcome Unit) (i : Nat) (s : State) : Prop :=
  (s.seq = .send i ∧ judge = classifySend) ∨ (s.seq = .recv i ∧ judge = classifyReceive)

/-- A step of the transactor, when it is the transactor's turn. -/
theorem step_eq_sequencerStep {s : State} (hbus : waitsForBus s = true) (hirq : interruptTaken (deviceMove s) = false) :
    step s = sequencerStep (deviceMove s) := by
  simp [step, agentStep, hbus, hirq]

/-- An attempt that finds its flag not there is its StatusRead alone, and the sequencer stays (R74, R75). -/
theorem sequencerStep_of_notYetReady {judge : Snapshot → BusOutcome Unit} {i : Nat} {s t : State}
    (hat : Awaits judge i s) (hout : i < s.out.length) (hkeep : i < s.keep.length) (hread : statusRead s = .next t)
    (h : judge t.per.flags = .notYetReady) : sequencerStep s = .next t := by
  rcases hat with ⟨hseq, rfl⟩ | ⟨hseq, rfl⟩
  · have hattempt := attemptSend_of_not_ready s.out[i] hread (by simp [h])
    rw [h] at hattempt
    simp only [sequencerStep, hseq, sendStep, List.getElem?_eq_getElem hout, hattempt, andThen_next_left]
  · have hattempt := attemptReceive_of_not_ready 0 hread (by simp [h])
    rw [receiveOutcome_of_notYetReady 0 h] at hattempt
    simp only [sequencerStep, hseq, recvStep, List.getElem?_eq_getElem hkeep, hattempt, andThen_next_left]

/-- A transaction of the running context, in the scripted environment with the interrupt source disabled, which stands at
position `i` before an attempt that judges by `judge`. -/
structure Retrying (judge : Snapshot → BusOutcome Unit) (i : Nat) (s : State) : Prop where
  scripted : s.env = .scripted
  waits : waitsForBus s = true
  masked : s.host.irqOn = false
  inOut : i < s.out.length
  inKeep : i < s.keep.length
  position : Awaits judge i s

theorem Retrying.of_busOnly {judge : Snapshot → BusOutcome Unit} {i : Nat} {s t : State} (h : Retrying judge i s)
    (g : BusOnly s t) : Retrying judge i t where
  scripted := g.env.trans h.scripted
  waits := by simpa [waitsForBus, g.transactor.busy, g.transactor.owner, g.host] using h.waits
  masked := g.host ▸ h.masked
  inOut := g.transactor.out ▸ h.inOut
  inKeep := g.transactor.keep ▸ h.inKeep
  position := by simpa [Awaits, g.transactor.seq] using h.position

/-- One not-ready snapshot: one step, which makes one StatusRead. -/
theorem Retrying.step_stays {judge : Snapshot → BusOutcome Unit} {i : Nat} {s : State} {f : Snapshot}
    {fs : List Snapshot} (h : Retrying judge i s) (hscript : s.script.snapshots = f :: fs) (hf : judge f = .notYetReady) :
    ∃ t, step s = .next t ∧ BusOnly s t ∧ t.script.snapshots = fs ∧ t.calls = s.calls ++ [.statusRead f] := by
  have hshown : shownFlags s = some f := by simp [shownFlags, h.scripted, hscript]
  obtain ⟨t, hread, rfl⟩ := statusRead_answers hshown
  have hmove : deviceMove s = s := deviceMove_of_not_oracle (by simp [h.scripted])
  refine ⟨t, ?_, (statusRead_next hread).bus, ?_, (statusRead_next hread).calls⟩
  · rw [step_eq_sequencerStep h.waits (by rw [hmove]; exact interruptTaken_of_masked h.masked), hmove]
    exact sequencerStep_of_notYetReady h.position h.inOut h.inKeep hread hf
  · simp [(statusRead_keeps hread).snapshots h.scripted, hscript]

/-- However many not-ready snapshots come: a step for each, and the sequencer stays where it is (R81). -/
theorem Retrying.run_stays {judge : Snapshot → BusOutcome Unit} {i : Nat} {rest : List Snapshot} (fs : List Snapshot)
    {s : State} (h : Retrying judge i s) (hscript : s.script.snapshots = fs ++ rest)
    (hfs : ∀ f ∈ fs, judge f = .notYetReady) :
    ∃ t, Sys2Proof.core.run fs.length s = .next t ∧ SameTransactor s t ∧ t.script.snapshots = rest ∧
      t.calls = s.calls ++ fs.map .statusRead := by
  induction fs generalizing s with
  | nil => exact ⟨s, rfl, .refl s, hscript, by simp⟩
  | cons f fs ih =>
    obtain ⟨u, hstep, hbus, hleft, hcall⟩ := h.step_stays hscript (hfs f (by simp))
    obtain ⟨t, hrun, hsame, hrest, hcalls⟩ := ih (h.of_busOnly hbus) hleft fun g hg => hfs g (by simp [hg])
    have hrun' : Sys2Proof.core.run (fs.length + 1) s = .next t :=
      (run_succ_of_step (M := Sys2Proof.core) fs.length hstep).trans hrun
    exact ⟨t, hrun', hbus.transactor.trans hsame, hrest, by rw [hcalls, hcall]; simp⟩

/-! ### The close, and the result returned (R77, R86, R87) -/

/-- What a transaction of this caller returns: the fault if one was stored, else the bytes collected. -/
def returnedResult (caller : Caller) (res : Option FaultKind) (inb : List Byte) : Result :=
  match caller, res with
  | .exchange, some k => .exchange (.err k)
  | .exchange, none => .exchange (.ok inb)
  | .write, some k => .write (.err k)
  | .write, none => .write (.ok ())
  | .read _, some k => .read (.err k)
  | .read _, none => .read (.ok inb)

/-- The record of the context that asked gets the result, and only a READ writes its buffer. -/
structure ResultReturned (s t : State) : Prop where
  result : (t.thread s.owner).result = some (returnedResult s.caller s.res s.inb)
  read : ∀ n, s.caller = .read n → s.res = none → (t.thread s.owner).buffer = s.inb
  notRead : (∀ n, s.caller ≠ .read n) → (t.thread s.owner).buffer = (s.thread s.owner).buffer
  others : ∀ c, c ≠ s.owner → t.thread c = s.thread c

theorem returnResult_of_not_read {s : State} (h : ∀ n, s.caller ≠ .read n) :
    returnResult s = s.deliver s.owner (returnedResult s.caller s.res s.inb) := by
  cases hcaller : s.caller with
  | exchange => cases hres : s.res <;> simp only [returnResult, returnedResult, hcaller, hres]
  | write => cases hres : s.res <;> simp only [returnResult, returnedResult, hcaller, hres]
  | read n => exact absurd hcaller (h n)

theorem resultReturned_of_read {s : State} {n : Nat} (h : s.caller = .read n) : ResultReturned s (returnResult s) := by
  cases hres : s.res with
  | none =>
    exact ⟨by simp [returnResult, returnedResult, h, hres], by simp [returnResult, h, hres],
      fun hne => absurd h (hne n), fun c hc => by simp [returnResult, h, hres, hc.symm]⟩
  | some k =>
    refine ⟨by simp [returnResult, returnedResult, h, hres], by simp [hres], fun hne => absurd h (hne n),
      fun c hc => ?_⟩
    simp only [returnResult, h, hres]
    exact (setThread_thread_other _ _ _ _ hc.symm).trans (thread_congr rfl c)

theorem returnResult_resultReturned (s : State) : ResultReturned s (returnResult s) := by
  by_cases h : ∃ n, s.caller = .read n
  · obtain ⟨n, hn⟩ := h
    exact resultReturned_of_read hn
  · have hne : ∀ n, s.caller ≠ .read n := not_exists.1 h
    rw [returnResult_of_not_read hne]
    exact ⟨by simp, fun n hn => absurd hn (hne n), fun _ => by simp,
      fun c hc => setThread_thread_other _ _ _ _ hc.symm⟩

theorem closeTransaction_of_configured {s : State} (h : s.selCfg = true) :
    closeTransaction s = .next (returnResult (driveDeasserted s).release) := by
  simp only [closeTransaction, selectDeassert_of_configured h, andThen_next_left]

/-- What the close makes of the transactor: the line deasserted, the block idle, the rest as it was. -/
theorem SameTransactor.closed {s t : State} (h : SameTransactor s t) :
    SameTransactor { s with sel := .deasserted, seq := .idle, busy := false } (driveDeasserted t).release :=
  ⟨h.selCfg, rfl, rfl, rfl, h.res, h.n, h.out, h.keep, h.inb, h.caller, h.owner⟩

/-! ### The obligations -/

/-- Settles O15: the attempt completes, or its frame is refused, and the outcome goes to the context that asked. -/
theorem attemptSendCompletes : Obligations.AttemptSendCompletes := by
  intro s b f hbusy hshown
  rw [exec_attemptSend_of_not_busy b hbusy]
  refine ⟨fun hready htaken => ?refused, fun htaken => ?completes⟩
  case refused => rw [attemptSend_of_not_taken hshown hready htaken, andThen_refused_left]
  case completes =>
    obtain ⟨u, hattempt, hhost, hdone⟩ := attemptSend_completes (b := b) hshown htaken
    have h := hdone.before (hostOnly_deliver u u.host.context (.send (classifySend f)))
    rw [hattempt, andThen_next_left]
    exact ⟨_, rfl, h.transactor, h.env, h.par, h.flags, by rw [deliver_host_congr hhost, hhost], h.calls, h.sent,
      h.unsent, h.reference, h.follows, h.others, h.stores⟩

/-- Settles O16: the attempt completes with each of its three outcomes, which goes to the context that asked. -/
theorem attemptReceiveCompletes : Obligations.AttemptReceiveCompletes := by
  intro s f v hbusy hshown hbyte
  obtain ⟨u, hattempt, hhost, hdone⟩ := attemptReceive_completes hshown hbyte
  have h := hdone.before (hostOnly_deliver u u.host.context (.receive (receiveOutcome f v)))
  have hdelivered : (u.deliver u.host.context (.receive (receiveOutcome f v))).host =
      (s.deliver s.host.context (.receive (receiveOutcome f v))).host := by rw [deliver_host_congr hhost, hhost]
  rw [exec_attemptReceive_of_not_busy hbusy, hattempt, andThen_next_left]
  refine ⟨_, rfl, h.transactor, h.env, h.par, h.dev, h.txByte, h.flags, ?_⟩
  cases hc : classifyReceive f with
  | ready =>
    have ho := receiveOutcome_of_ready v hc
    exact ⟨ho ▸ hdelivered, h.taken v ho⟩
  | notYetReady =>
    have ho := receiveOutcome_of_notYetReady v hc
    exact ⟨ho ▸ hdelivered, h.untaken (by simp [ho])⟩
  | fault k =>
    have ho := receiveOutcome_of_fault v hc
    exact ⟨ho ▸ hdelivered, h.untaken (by simp [ho])⟩

/-- Settles O22, by induction on the snapshots, for either attempt. -/
theorem retryHasNoBound : Obligations.RetryHasNoBound := by
  intro fs s i rest henv hwaits hmasked hscript hout hkeep hat
  rcases hat with ⟨hseq, hfs⟩ | ⟨hseq, hfs⟩
  · exact Retrying.run_stays fs ⟨henv, hwaits, hmasked, hout, hkeep, .inl ⟨hseq, rfl⟩⟩ hscript hfs
  · exact Retrying.run_stays fs ⟨henv, hwaits, hmasked, hout, hkeep, .inr ⟨hseq, rfl⟩⟩ hscript hfs

/-- Settles O11: the flags in the order they are judged. -/
theorem classificationPriority : Obligations.ClassificationPriority :=
  fun _ ready => ⟨classify_of_overrun ready, classify_of_modeFault ready, classify_of_checksumError ready,
    fun ho hm hc hready => (classify_of_no_fault ready ho hm hc).trans (if_pos hready),
    fun ho hm hc hready => (classify_of_no_fault ready ho hm hc).trans (if_neg (by simp [hready]))⟩

/-- Settles O12, row by row. -/
theorem snapshotOutcomeTable : Obligations.SnapshotOutcomeTable
  | ⟨true, _, _, _, _⟩ => attempts_of_fault fun ready => classify_of_overrun ready rfl
  | ⟨false, true, _, _, _⟩ => attempts_of_fault fun ready => classify_of_modeFault ready rfl rfl
  | ⟨false, false, true, _, _⟩ => attempts_of_fault fun ready => classify_of_checksumError ready rfl rfl rfl
  | ⟨false, false, false, true, true⟩ => attempts_of_no_fault rfl rfl rfl
  | ⟨false, false, false, true, false⟩ => attempts_of_no_fault rfl rfl rfl
  | ⟨false, false, false, false, true⟩ => attempts_of_no_fault rfl rfl rfl
  | ⟨false, false, false, false, false⟩ => attempts_of_no_fault rfl rfl rfl

/-- Settles O20: the step is the device's own move, the deassertion, and the result returned. -/
theorem closeStepDeassertsAndReturns : Obligations.CloseStepDeassertsAndReturns := by
  intro s i hbus hirq hcfg hseq
  have hm := deviceMove_moved s
  obtain ⟨hcontext, -, -, hisr, hctl, hirqOn⟩ := deviceMove_host s
  have hstep : step s = .next (returnResult (driveDeasserted (deviceMove s)).release) := by
    rw [step_eq_sequencerStep hbus hirq]
    simp only [sequencerStep, hm.transactor.seq.trans hseq]
    exact closeTransaction_of_configured (hm.transactor.selCfg.trans hcfg)
  have hr := returnResult_returned (driveDeasserted (deviceMove s)).release
  have hthread (c : Context) : ((driveDeasserted (deviceMove s)).release).thread c = s.thread c :=
    (thread_congr rfl c).trans (deviceMove_thread s c)
  obtain ⟨hresult, hread, hnotRead, hothers⟩ := returnResult_resultReturned (driveDeasserted (deviceMove s)).release
  simp only [release_owner, release_caller, release_res, release_inb, driveDeasserted_owner, driveDeasserted_caller,
    driveDeasserted_res, driveDeasserted_inb, hm.transactor.owner, hm.transactor.caller, hm.transactor.res,
    hm.transactor.inb, hthread] at hresult hread hnotRead hothers
  refine ⟨_, hstep, hm.transactor.closed.trans hr.transactor, hr.calls.trans (by simp [hm.calls]), fun a _ => ?regs,
    hr.dev, hr.per.trans hm.per, hr.env.trans hm.env, hr.script.trans hm.script, hr.par.trans hm.par, ?result, hread,
    hnotRead, (hr.todo s.owner).trans (by rw [hthread]), (hr.call s.owner).trans (by rw [hthread]), hothers,
    hr.context.trans hcontext, hr.ctl.trans hctl, hr.isr.trans hisr, hr.irqOn.trans hirqOn, hr.irq⟩
  case regs => exact regRead_congr ((congrArg Device.regs hr.dev).trans hm.regs) a
  case result =>
    rw [hresult]
    cases s.caller <;> cases s.res <;> rfl

end Sys2Proof.Machine

/-! ## EXCHANGE: its admission, the rows of the sequencer, the fault, and the big-step reading -/

namespace Sys2Proof.Machine

/-! ### The refusals of R72 -/

theorem openTransaction_of_refusal {c : Caller} {bytes : List Byte} {mask : List Bool} {s : State} {r : Refusal}
    (h : exchangeRefusal bytes mask s = some r) : openTransaction c bytes mask s = .refused r := by
  simp only [openTransaction, h]

theorem exchangeRefusal_of_unconfigured {bytes : List Byte} {mask : List Bool} {s : State} (hcfg : s.selCfg = false) :
    exchangeRefusal bytes mask s = some .selectNotConfigured := by simp [exchangeRefusal, hcfg]

theorem exchangeRefusal_of_busy {bytes : List Byte} {mask : List Bool} {s : State} (hcfg : s.selCfg = true)
    (hbusy : s.busy = true) : exchangeRefusal bytes mask s = some .reentrantExchange := by
  simp [exchangeRefusal, hcfg, hbusy]

theorem exchangeRefusal_of_malformed {bytes : List Byte} {mask : List Bool} {s : State} (hready : readyToOpen s)
    (hmask : mask.length ≠ bytes.length) : exchangeRefusal bytes mask s = some (.badRequest .malformedRequest) := by
  obtain ⟨hcfg, hbusy⟩ := hready
  simp [exchangeRefusal, hcfg, hbusy, hmask]

theorem exchangeRefusal_of_tooLong {bytes : List Byte} {mask : List Bool} {s : State} (hready : readyToOpen s)
    (hmask : mask.length = bytes.length) (hlong : s.par.maxLen + 1 < bytes.length) :
    exchangeRefusal bytes mask s = some (.badRequest .tooLong) := by
  obtain ⟨hcfg, hbusy⟩ := hready
  simp [exchangeRefusal, hcfg, hbusy, hmask, hlong]

/-! ### Nothing nests (R72, R132, R167) -/

theorem whenIdle_of_busy {s : State} (h : s.busy = true) (o : Out State) : whenIdle s o = .refused .reentrantExchange :=
  if_pos h

theorem openTransaction_of_busy {s : State} (hcfg : s.selCfg = true) (hbusy : s.busy = true) (c : Caller)
    (bytes : List Byte) (mask : List Bool) : openTransaction c bytes mask s = .refused .reentrantExchange :=
  openTransaction_of_refusal (exchangeRefusal_of_busy hcfg hbusy)

/-- The checks of the operands are the conditions of R92. -/
theorem checkAccess_eq_none {maxLen a n : Nat} : checkAccess maxLen a n = none ↔ accessAdmitted maxLen a n := by
  rw [← accessRefusal_eq_none, checkAccess, accessRefusal]
  split_ifs <;> simp

/-- An access that passes the checks of its operands is refused as the EXCHANGE under it is. -/
theorem openAccess_of_busy {s : State} {a n : Nat} (hcfg : s.selCfg = true) (hbusy : s.busy = true)
    (h : checkAccess s.par.maxLen a n = none) (c : Caller) (bytes : List Byte) (mask : List Bool) :
    openAccess c a n bytes mask s = .refused .reentrantExchange := by
  simp only [openAccess, accessRefusal_eq_none.2 (checkAccess_eq_none.1 h), openTransaction_of_busy hcfg hbusy]

theorem wellFormed_iff {maxLen : Nat} {i : Instr} : i.wellFormed maxLen = true ↔ i.check maxLen = none :=
  Option.isNone_iff_eq_none

/-- A multi-byte form that passes the checks has two data bytes, and its access is admitted (R50, R55). -/
theorem check_multi_eq_none {maxLen a n : Nat} :
    (if n < 2 then some .formMismatch else checkAccess maxLen a n) = none ↔ 2 ≤ n ∧ checkAccess maxLen a n = none := by
  split <;> simp <;> omega

theorem exec_of_busy {s : State} {i : Instr} (hcfg : s.selCfg = true) (hbusy : s.busy = true)
    (h : i.check s.par.maxLen = none) : exec i s = .refused .reentrantExchange := by
  cases i with
  | selectAssert => exact whenIdle_of_busy hbusy _
  | selectDeassert => exact whenIdle_of_busy hbusy _
  | attemptSend b => exact whenIdle_of_busy hbusy _
  | attemptReceive => exact whenIdle_of_busy hbusy _
  | exchange bytes mask => exact openTransaction_of_busy hcfg hbusy _ _ _
  | write a p => exact openAccess_of_busy hcfg hbusy h _ _ _
  | read a n => exact openAccess_of_busy hcfg hbusy h _ _ _
  | wr1 a p => exact openAccess_of_busy hcfg hbusy h _ _ _
  | rd1 a => exact openAccess_of_busy hcfg hbusy h _ _ _
  | wrm a ps =>
    obtain ⟨hlen, hcheck⟩ := check_multi_eq_none.1 h
    exact (whenMulti_of_le hlen _).trans (openAccess_of_busy hcfg hbusy hcheck _ _ _)
  | rdm a n =>
    obtain ⟨hlen, hcheck⟩ := check_multi_eq_none.1 h
    exact (whenMulti_of_le hlen _).trans (openAccess_of_busy hcfg hbusy hcheck _ _ _)

/-! ### The end of a transaction (R77) -/

/-- While a transaction is in flight the host changes nothing but its own records. -/
theorem hostStep_of_busy {s t : State} (hbusy : s.busy = true) (h : hostStep s = .next t) : HostOnly s t := by
  have hopens {c : Caller} {bytes : List Byte} {mask : List Bool} {s' u : State} (hpre : HostOnly s s')
      (hopen : Opened c bytes mask s' u) : False := by
    obtain ⟨-, hidle⟩ := hopen.ready
    simp [hpre.transactor.busy, hbusy] at hidle
  rcases hostStep_next h with hhost | ⟨s', u, c, bytes, mask, hpre, -, hopen, -⟩ | ⟨s', -, hidle, -⟩ |
    ⟨s', i, hpre, -, hexec, -⟩
  · exact hhost
  · exact (hopens hpre hopen).elim
  · simp [hbusy] at hidle
  · have hbusy' : s'.busy = true := hpre.transactor.busy.trans hbusy
    rcases exec_next hexec with ⟨c, bytes, mask, hopen⟩ | ⟨-, ⟨-, hidle⟩, -⟩ | ⟨-, ⟨-, hidle⟩, -⟩ |
      ⟨b, o, u, -, hidle, -⟩ | ⟨o, u, -, hidle, -⟩
    · exact (hopens hpre hopen).elim
    all_goals simp [hbusy'] at hidle

/-- The sequencer leaves the transaction in flight, but for its close. -/
theorem sequencerStep_busy {s t : State} (h : sequencerStep s = .next t) :
    t.busy = s.busy ∨ ((∃ i, s.seq = .close i) ∧ t.sel = .deasserted) := by
  rcases sequencerStep_next h with ⟨i, b, o, u, -, -, hsend, hrow⟩ | ⟨i, kept, o, u, -, -, hrecv, hrow⟩ |
    ⟨i, hseq, hclose⟩
  · rw [← (attemptSend_busOnly hsend).transactor.busy]
    rcases hrow with ⟨-, rfl⟩ | ⟨-, rfl⟩ | ⟨k, -, rfl⟩ <;> exact .inl rfl
  · rw [← (attemptReceive_busOnly hrecv).transactor.busy]
    rcases hrow with ⟨-, rfl⟩ | ⟨v, -, rfl⟩ | ⟨k, -, rfl⟩ <;> exact .inl rfl
  · obtain ⟨-, rfl⟩ := closeTransaction_next hclose
    exact .inr ⟨⟨i, hseq⟩, (returnResult_returned _).transactor.sel⟩

/-- A step leaves a transaction in flight, but for the close. -/
theorem step_busy {s t : State} (hbusy : s.busy = true) (h : step s = .next t) :
    t.busy = true ∨ ((∃ i, s.seq = .close i) ∧ t.sel = .deasserted) := by
  have hm := (deviceMove_moved s).transactor
  rcases step_next h with ⟨-, rfl⟩ | ⟨-, -, hseq⟩ | ⟨-, -, hhost⟩
  · exact .inl (hm.busy.trans hbusy)
  · have hrow := sequencerStep_busy hseq
    rwa [hm.busy, hbusy, hm.seq] at hrow
  · have hbusy' : (deviceMove s).busy = true := hm.busy.trans hbusy
    exact .inl ((hostStep_of_busy hbusy' hhost).transactor.busy.trans hbusy')

/-! ### The obligations -/

/-- Settles O17: the admitted state, and each row of R72's table. -/
theorem exchangeAdmission : Obligations.ExchangeAdmission :=
  fun _ _ _ => ⟨openTransaction_answers,
    fun hcfg => openTransaction_of_refusal (exchangeRefusal_of_unconfigured hcfg),
    fun hcfg hbusy => openTransaction_of_busy hcfg hbusy _ _ _,
    fun hready hmask => openTransaction_of_refusal (exchangeRefusal_of_malformed hready hmask),
    fun hready hmask hlong => openTransaction_of_refusal (exchangeRefusal_of_tooLong hready hmask hlong)⟩

/-- Settles O42: each instruction whose operands pass their checks meets the busy block next. -/
theorem nothingNestsInATransaction : Obligations.NothingNestsInATransaction :=
  fun _ _ hcfg hbusy hwf => exec_of_busy hcfg hbusy (wellFormed_iff.1 hwf)

/-- Settles O45: a step that leaves the block idle is not one that leaves the transaction in flight. -/
theorem transactionEndsOnlyByClose : Obligations.TransactionEndsOnlyByClose :=
  fun _ _ hbusy h hidle => (step_busy hbusy h).resolve_left (by simp [hidle])

end Sys2Proof.Machine

/-! ## The rows of the sequencer at a byte, and the transaction a fault ends -/

namespace Sys2Proof.Machine

/-! ### What a row makes of its attempt's outcome (R74 to R76, R78) -/

/-- The row of the sequencer at (Send, i), after an ATTEMPT_SEND with the outcome `o`. -/
def sendRow (i : Nat) (o : BusOutcome Unit) (s : State) : State :=
  match o with
  | .notYetReady => s
  | .ready _ => s.goto (.recv i)
  | .fault k => abortTransaction k i s

/-- The row at (Recv, i), whose byte is `kept` or not, after an ATTEMPT_RECEIVE with the outcome `o`. -/
def recvRow (kept : Bool) (i : Nat) (o : BusOutcome Byte) (s : State) : State :=
  match o with
  | .notYetReady => s
  | .ready v => collect kept v i s
  | .fault k => abortTransaction k i s

theorem sequencerStep_of_attemptSend {s u : State} {i : Nat} {b : Byte} {o : BusOutcome Unit} (hseq : s.seq = .send i)
    (hbyte : s.out[i]? = some b) (h : attemptSend b s = .next (o, u)) : sequencerStep s = .next (sendRow i o u) := by
  simp only [sequencerStep, hseq, sendStep, hbyte, h, andThen_next_left]
  cases o <;> rfl

theorem sequencerStep_of_attemptReceive {s u : State} {i : Nat} {kept : Bool} {o : BusOutcome Byte}
    (hseq : s.seq = .recv i) (hkept : s.keep[i]? = some kept) (h : attemptReceive s = .next (o, u)) :
    sequencerStep s = .next (recvRow kept i o u) := by
  simp only [sequencerStep, hseq, recvStep, hkept, h, andThen_next_left]
  cases o <;> rfl

/-- An ATTEMPT_SEND that the reference device refuses refuses the step. -/
theorem sequencerStep_of_refused_send {s : State} {i : Nat} {b : Byte} {r : Refusal} (hseq : s.seq = .send i)
    (hbyte : s.out[i]? = some b) (h : attemptSend b s = .refused r) : sequencerStep s = .refused r := by
  simp only [sequencerStep, hseq, sendStep, hbyte, h, andThen_refused_left]

/-- A row moves the sequencer, and may store a fault or collect a byte; nothing else of the machine changes. -/
def Repositioned (s t : State) : Prop := ∃ q r bytes, t = { s with seq := q, res := r, inb := bytes }

theorem sendRow_repositioned (i : Nat) (o : BusOutcome Unit) (s : State) : Repositioned s (sendRow i o s) := by
  cases o with
  | ready => exact ⟨.recv i, s.res, s.inb, rfl⟩
  | notYetReady => exact ⟨s.seq, s.res, s.inb, rfl⟩
  | fault k => exact ⟨.close i, some k, s.inb, rfl⟩

theorem recvRow_repositioned (kept : Bool) (i : Nat) (o : BusOutcome Byte) (s : State) :
    Repositioned s (recvRow kept i o s) := by
  cases o with
  | ready v => exact ⟨_, s.res, _, rfl⟩
  | notYetReady => exact ⟨s.seq, s.res, s.inb, rfl⟩
  | fault k => exact ⟨.close i, some k, s.inb, rfl⟩

theorem Repositioned.dev {s t : State} (h : Repositioned s t) : t.dev = s.dev := by
  obtain ⟨q, r, bytes, rfl⟩ := h; rfl

theorem Repositioned.host {s t : State} (h : Repositioned s t) : t.host = s.host := by
  obtain ⟨q, r, bytes, rfl⟩ := h; rfl

theorem Repositioned.calls {s t : State} (h : Repositioned s t) : t.calls = s.calls := by
  obtain ⟨q, r, bytes, rfl⟩ := h; rfl

/-- What a row makes of the transactor depends on the transactor alone. -/
theorem SameTransactor.sendRow {s t : State} (h : SameTransactor s t) (i : Nat) (o : BusOutcome Unit) :
    SameTransactor (sendRow i o s) (sendRow i o t) := by
  cases o with
  | ready => exact ⟨h.selCfg, h.sel, h.busy, rfl, h.res, h.n, h.out, h.keep, h.inb, h.caller, h.owner⟩
  | notYetReady => exact h
  | fault k => exact ⟨h.selCfg, h.sel, h.busy, rfl, rfl, h.n, h.out, h.keep, h.inb, h.caller, h.owner⟩

theorem SameTransactor.recvRow {s t : State} (h : SameTransactor s t) (kept : Bool) (i : Nat) (o : BusOutcome Byte) :
    SameTransactor (recvRow kept i o s) (recvRow kept i o t) := by
  cases o with
  | ready v =>
    have hseq : (collect kept v i t).seq = (collect kept v i s).seq := by simp only [collect_seq, h.n]
    have hinb : (collect kept v i t).inb = (collect kept v i s).inb := by simp only [collect_inb, h.inb]
    exact ⟨h.selCfg, h.sel, h.busy, hseq, h.res, h.n, h.out, h.keep, hinb, h.caller, h.owner⟩
  | notYetReady => exact h
  | fault k => exact ⟨h.selCfg, h.sel, h.busy, rfl, rfl, h.n, h.out, h.keep, h.inb, h.caller, h.owner⟩

/-! ### The device's own move before a row (R134; log 11) -/

theorem deviceMove_frameTaken (s : State) : frameTaken (deviceMove s) = frameTaken s := by
  have hm := deviceMove_moved s
  obtain ⟨hphase, -⟩ := hm.frame
  simp only [frameTaken, hm.env, hphase]

/-- Of the device the move sets the pending condition and nothing else. -/
theorem deviceMove_dev (s : State) :
    (deviceMove s).dev = { s.dev with dataReady := (deviceMove s).dev.dataReady } := by
  unfold deviceMove
  split
  · split <;> rfl
  · rfl

/-- A reference device makes no move of its own. -/
theorem deviceMove_of_reference {s : State} (h : s.env = .reference) : deviceMove s = s :=
  deviceMove_of_not_oracle (by simp [h])

theorem deviceMove_regRead (s : State) (a : RegAddr) : regRead (deviceMove s).dev a = regRead s.dev a :=
  regRead_congr (deviceMove_moved s).regs a

/-- With the interrupt source disabled no handler starts, whatever the device's move raised (R136). -/
theorem interruptTaken_deviceMove_of_masked {s : State} (h : s.host.irqOn = false) :
    interruptTaken (deviceMove s) = false := by
  obtain ⟨-, -, -, -, -, hirqOn⟩ := deviceMove_host s
  exact interruptTaken_of_masked (hirqOn.trans h)

/-! ### A fault and the close (R77, R78, R129) -/

/-- An attempt that sees a fault is its StatusRead alone, and the sequencer goes to the close with the fault stored. -/
theorem sequencerStep_of_fault {judge : Snapshot → BusOutcome Unit} {i : Nat} {s t : State} {k : FaultKind}
    (hat : Awaits judge i s) (hout : i < s.out.length) (hkeep : i < s.keep.length) (hread : statusRead s = .next t)
    (h : judge t.per.flags = .fault k) : sequencerStep s = .next (abortTransaction k i t) := by
  rcases hat with ⟨hseq, rfl⟩ | ⟨hseq, rfl⟩
  · have hattempt := attemptSend_of_not_ready s.out[i] hread (by simp [h])
    rw [h] at hattempt
    exact sequencerStep_of_attemptSend hseq (List.getElem?_eq_getElem hout) hattempt
  · have hattempt := attemptReceive_of_not_ready 0 hread (by simp [h])
    rw [receiveOutcome_of_fault 0 h] at hattempt
    exact sequencerStep_of_attemptReceive hseq (List.getElem?_eq_getElem hkeep) hattempt

theorem Awaits.congr {judge : Snapshot → BusOutcome Unit} {i : Nat} {s t : State} (h : Awaits judge i s)
    (hseq : t.seq = s.seq) : Awaits judge i t := by
  simpa only [Awaits, hseq] using h

/-- What the step of either attempt does when it sees the fault `k` in the snapshot `f`, at position `i`. -/
structure FaultSeen (f : Snapshot) (k : FaultKind) (i : Nat) (s t : State) : Prop where
  transactor : SameTransactor { s with seq := .close i, res := some k } t
  calls : t.calls = s.calls ++ [.statusRead f]
  host : t.host = (deviceMove s).host
  dev : t.dev = (deviceMove s).dev

theorem step_of_fault {judge : Snapshot → BusOutcome Unit} {i : Nat} {s : State} {f : Snapshot} {k : FaultKind}
    (hbus : waitsForBus s = true) (hirq : interruptTaken (deviceMove s) = false) (hat : Awaits judge i s)
    (hout : i < s.out.length) (hkeep : i < s.keep.length) (hshown : shownFlags (deviceMove s) = some f)
    (hf : judge f = .fault k) : ∃ t, step s = .next t ∧ FaultSeen f k i s t := by
  have hm := deviceMove_moved s
  obtain ⟨u, hread, rfl⟩ := statusRead_answers hshown
  have hr := statusRead_next hread
  have hsame : SameTransactor s u := hm.transactor.trans hr.bus.transactor
  refine ⟨abortTransaction k i u, ?_, hsame.sendRow i (.fault k), hr.calls.trans (by rw [hm.calls]), hr.bus.host, hr.dev⟩
  rw [step_eq_sequencerStep hbus hirq]
  exact sequencerStep_of_fault (hat.congr hm.transactor.seq) (by rwa [hm.transactor.out]) (by rwa [hm.transactor.keep])
    hread hf

/-- A step that sees a fault leaves its context waiting, at the close and with the interrupt source as it was. -/
theorem FaultSeen.waits {f : Snapshot} {k : FaultKind} {i : Nat} {s t : State} (h : FaultSeen f k i s t)
    (hbus : waitsForBus s = true) : waitsForBus t = true := by
  obtain ⟨hcontext, -⟩ := deviceMove_host s
  simpa only [waitsForBus, h.transactor.busy, h.transactor.owner, h.host, hcontext] using hbus

theorem FaultSeen.masked {f : Snapshot} {k : FaultKind} {i : Nat} {s t : State} (h : FaultSeen f k i s t)
    (hmasked : s.host.irqOn = false) : t.host.irqOn = false := by
  obtain ⟨-, -, -, -, -, hirqOn⟩ := deviceMove_host s
  rw [h.host, hirqOn, hmasked]

/-! ### The obligations -/

/-- Settles O18: the step is the device's own move, the attempt complete or refused, and the row of its outcome. -/
theorem sendStepFollowsItsRow : Obligations.SendStepFollowsItsRow := by
  intro s i b f hbus hirq hseq hbyte hshown
  have hm := deviceMove_moved s
  have hseq' : (deviceMove s).seq = .send i := hm.transactor.seq.trans hseq
  have hbyte' : (deviceMove s).out[i]? = some b := hm.transactor.out ▸ hbyte
  have htarget := deviceMove_storeTarget s
  rw [step_eq_sequencerStep hbus hirq]
  refine ⟨fun hready htaken => ?refused, fun htaken => ?answers⟩
  case refused =>
    obtain ⟨hphase, -⟩ := hm.frame
    rw [← hphase]
    exact sequencerStep_of_refused_send hseq' hbyte'
      (attemptSend_of_not_taken hshown hready ((deviceMove_frameTaken s).trans htaken))
  case answers =>
    obtain ⟨u, hattempt, hhost, hdone⟩ :=
      attemptSend_completes (b := b) hshown fun hready => (deviceMove_frameTaken s).trans (htaken hready)
    have hrow := sendRow_repositioned i (classifySend f) u
    have htransactor := (hm.transactor.trans hdone.transactor).sendRow i (classifySend f)
    have hcalls := hrow.calls.trans hdone.calls
    rw [hm.calls] at hcalls
    refine ⟨sendRow i (classifySend f) u, sequencerStep_of_attemptSend hseq' hbyte' hattempt, hrow.host.trans hhost, ?_⟩
    rw [hrow.dev]
    refine ⟨fun hne => (hdone.unsent hne).2, fun hready henv => ?reference, fun hready henv => ?follows,
      fun a hne => ?others, fun a hready ha => ?stores, ?row⟩
    case reference =>
      have hframe := hdone.reference hready (hm.env.trans henv)
      rwa [deviceMove_of_reference henv] at hframe
    case follows =>
      have hframe := hdone.follows hready (hm.env ▸ henv)
      rwa [hm.par, hm.env] at hframe
    case others => exact hrow.dev ▸ (hdone.others a (htarget ▸ hne)).trans (deviceMove_regRead s a)
    case stores => exact hdone.stores a hready (htarget.trans ha)
    case row =>
      cases hc : classifySend f with
      | ready => exact ⟨by rwa [hc] at htransactor, by simpa [hc] using hcalls⟩
      | notYetReady => exact ⟨by rwa [hc] at htransactor, by simpa [hc] using hcalls⟩
      | fault k => exact ⟨by rwa [hc] at htransactor, by simpa [hc] using hcalls⟩

/-- Settles O19: the step is the device's own move, the attempt complete, and the row of its outcome. -/
theorem receiveStepFollowsItsRow : Obligations.ReceiveStepFollowsItsRow := by
  intro s i kept f v hbus hirq hseq hkept hshown hbyte
  have hm := deviceMove_moved s
  obtain ⟨u, hattempt, hhost, hdone⟩ := attemptReceive_completes hshown hbyte
  have hrow := recvRow_repositioned kept i (receiveOutcome f v) u
  have hdev := hrow.dev.trans hdone.dev
  have htransactor := (hm.transactor.trans hdone.transactor).recvRow kept i (receiveOutcome f v)
  have hcalls := hrow.calls
  refine ⟨recvRow kept i (receiveOutcome f v) u, ?step, fun a _ => hdev ▸ deviceMove_regRead s a,
    hrow.host.trans hhost, hdev, by rw [hdev]; exact deviceMove_dev s, ?row⟩
  case step =>
    rw [step_eq_sequencerStep hbus hirq]
    exact sequencerStep_of_attemptReceive (hm.transactor.seq.trans hseq) (hm.transactor.keep ▸ hkept) hattempt
  case row =>
    cases hc : classifyReceive f with
    | ready =>
      rw [receiveOutcome_of_ready v hc] at htransactor hcalls hdone ⊢
      obtain ⟨-, -, htaken⟩ := hdone.taken v rfl
      exact ⟨htransactor, hcalls.trans (htaken.trans (by rw [hm.calls]))⟩
    | notYetReady =>
      rw [receiveOutcome_of_notYetReady v hc] at htransactor hcalls hdone ⊢
      obtain ⟨-, -, huntaken⟩ := hdone.untaken (by simp)
      exact ⟨htransactor, hcalls.trans (huntaken.trans (by rw [hm.calls]))⟩
    | fault k =>
      rw [receiveOutcome_of_fault v hc] at htransactor hcalls hdone ⊢
      obtain ⟨-, -, huntaken⟩ := hdone.untaken (by simp)
      exact ⟨htransactor, hcalls.trans (huntaken.trans (by rw [hm.calls]))⟩

/-- Settles O21: one step sees the fault, whichever attempt it is, and the close is the other. -/
theorem faultClosesTheTransaction : Obligations.FaultClosesTheTransaction := by
  intro s i f k hbus hmasked hcfg hout hkeep hshown hfault
  have hseen : ∃ t, step s = .next t ∧ FaultSeen f k i s t := by
    have hirq := interruptTaken_deviceMove_of_masked hmasked
    rcases hfault with ⟨hseq, hf⟩ | ⟨hseq, hf⟩
    · exact step_of_fault hbus hirq (.inl ⟨hseq, rfl⟩) hout hkeep hshown hf
    · exact step_of_fault hbus hirq (.inr ⟨hseq, rfl⟩) hout hkeep hshown hf
  obtain ⟨t, hstep, ht⟩ := hseen
  have htr := ht.transactor
  obtain ⟨u, hclose, hu, hcalls, hregs, -, -, -, -, -, hresult, -⟩ := closeStepDeassertsAndReturns t i (ht.waits hbus)
    (interruptTaken_deviceMove_of_masked (ht.masked hmasked)) (htr.selCfg.trans hcfg) htr.seq
  refine ⟨u, ?run, hu.sel, hu.seq, hu.busy, by rw [hcalls, ht.calls]; simp, ?result, fun a hne => ?regs⟩
  case run =>
    rw [run_succ_of_step (M := Sys2Proof.core) 1 hstep, run_succ_of_step (M := Sys2Proof.core) 0 hclose]
    rfl
  case result =>
    rw [htr.owner, htr.caller, htr.res] at hresult
    rw [hresult]
    cases s.caller <;> rfl
  case regs => exact (hregs a hne).trans (ht.dev ▸ deviceMove_regRead s a)

end Sys2Proof.Machine

/-! ## The steps of an EXCHANGE and its big-step reading -/

namespace Sys2Proof.Machine

/-! ### What an attempt takes from the script (R166) -/

theorem dataWrite_script {b : Byte} {s t : State} (h : dataWrite b s = .next t) : t.script = s.script := by
  by_cases henv : s.env = .reference
  · obtain ⟨r, d, -, rfl⟩ := (dataWrite_next_iff_of_reference henv).1 h
    rfl
  · rw [dataWrite_of_not_reference b henv] at h
    cases h
    rfl

theorem dataRead_script {s t : State} (henv : s.env = .scripted) (h : dataRead s = .next t) :
    t.script = { s.script with bytes := s.script.bytes.tail } := by
  simp only [dataRead, henv] at h
  split at h
  · cases h
  · next v vs hbytes =>
    cases h
    simp [hbytes]

theorem statusRead_script {s t : State} (henv : s.env = .scripted) (h : statusRead s = .next t) :
    t.script = { s.script with snapshots := s.script.snapshots.tail } := by
  have hk := statusRead_keeps h
  simp only [← hk.snapshots henv, ← hk.bytes]

/-- An ATTEMPT_SEND takes one snapshot. -/
theorem attemptSend_script {b : Byte} {s t : State} {o : BusOutcome Unit} (henv : s.env = .scripted)
    (h : attemptSend b s = .next (o, t)) : t.script = { s.script with snapshots := s.script.snapshots.tail } := by
  obtain ⟨s1, hread, -, ⟨-, hwrite⟩ | ⟨-, rfl⟩⟩ := attemptSend_next h
  · exact (dataWrite_script hwrite).trans (statusRead_script henv hread)
  · exact statusRead_script henv hread

/-- A ready ATTEMPT_RECEIVE takes one snapshot and one byte. -/
theorem attemptReceive_script_of_ready {s t : State} {v : Byte} (henv : s.env = .scripted)
    (h : attemptReceive s = .next (.ready v, t)) : t.script = ⟨s.script.snapshots.tail, s.script.bytes.tail⟩ := by
  obtain ⟨s1, hread, ⟨-, hmove, -⟩ | ⟨-, ho, -⟩ | ⟨k, -, ho, -⟩⟩ := attemptReceive_next h
  · rw [dataRead_script ((statusRead_next hread).bus.env.trans henv) hmove, statusRead_script henv hread]
  · cases ho
  · cases ho

/-! ### Runs inside one transaction -/

/-- A run in which the transaction in flight goes on, with the calls `cs` made. -/
structure RunsTo (cs : List Call) (s t : State) : Prop where
  run : ∃ k, Sys2Proof.core.run k s = .next t
  calls : t.calls = s.calls ++ cs
  selCfg : t.selCfg = s.selCfg
  busy : t.busy = s.busy
  operands : SameOperands s t
  env : t.env = s.env
  host : t.host = s.host

theorem RunsTo.refl (s : State) : RunsTo [] s s :=
  ⟨⟨0, rfl⟩, by simp, rfl, rfl, ⟨rfl, rfl, rfl, rfl, rfl⟩, rfl, rfl⟩

theorem RunsTo.trans {cs ds : List Call} {s t u : State} (h : RunsTo cs s t) (g : RunsTo ds t u) :
    RunsTo (cs ++ ds) s u := by
  obtain ⟨k, hk⟩ := h.run
  obtain ⟨l, hl⟩ := g.run
  exact ⟨⟨k + l, (run_add_of_run k l hk).trans hl⟩, by rw [g.calls, h.calls, List.append_assoc],
    g.selCfg.trans h.selCfg, g.busy.trans h.busy, h.operands.trans g.operands, g.env.trans h.env, g.host.trans h.host⟩

/-- One step, when only its calls, the environment's answers and the sequencer's place differ after it. -/
theorem RunsTo.of_step {cs : List Call} {s t : State} {q : Seq} {r : Option FaultKind} {bytes : List Byte}
    (h : step s = .next t) (hcalls : t.calls = s.calls ++ cs)
    (hsame : SameTransactor { s with seq := q, res := r, inb := bytes } t) (henv : t.env = s.env)
    (hhost : t.host = s.host) : RunsTo cs s t :=
  ⟨⟨1, run_succ_of_step (M := Sys2Proof.core) 0 h⟩, hcalls, hsame.selCfg, hsame.busy,
    ⟨hsame.n, hsame.out, hsame.keep, hsame.caller, hsame.owner⟩, henv, hhost⟩

/-- A transaction of the running context, in the scripted environment with the interrupt source disabled. -/
structure OnScript (s : State) : Prop where
  scripted : s.env = .scripted
  waits : waitsForBus s = true
  masked : s.host.irqOn = false
  configured : s.selCfg = true

theorem RunsTo.onScript {cs : List Call} {s t : State} (h : RunsTo cs s t) (hs : OnScript s) : OnScript t where
  scripted := h.env.trans hs.scripted
  waits := by simpa only [waitsForBus, h.busy, h.operands.owner, h.host] using hs.waits
  masked := h.host ▸ hs.masked
  configured := h.selCfg.trans hs.configured

theorem OnScript.deviceMove_eq {s : State} (h : OnScript s) : deviceMove s = s :=
  deviceMove_of_not_oracle (by simp [h.scripted])

theorem OnScript.uninterrupted {s : State} (h : OnScript s) : interruptTaken (deviceMove s) = false :=
  interruptTaken_deviceMove_of_masked h.masked

theorem OnScript.shownFlags_eq {s : State} {f : Snapshot} {fs : List Snapshot} (h : OnScript s)
    (hscript : s.script.snapshots = f :: fs) : shownFlags s = some f := by
  simp [shownFlags, h.scripted, hscript]

theorem OnScript.frameTaken_eq {s : State} (h : OnScript s) : frameTaken s = true := by
  simp [frameTaken, h.scripted]

/-! ### One spin-retry loop (R74, R75, R79) -/

/-- How a spin-retry loop ends: the flag it waits for, or a fault. -/
def spinEnd : Option FaultKind → BusOutcome Unit
  | none => .ready ()
  | some k => .fault k

theorem spinLoop_cons_eq_some {judge : Snapshot → BusOutcome Unit} {f : Snapshot} {fs left : List Snapshot}
    {cs : List Call} {o : Option FaultKind} (h : spinLoop judge (f :: fs) = some (cs, o, left)) :
    (judge f = spinEnd o ∧ cs = [.statusRead f] ∧ left = fs) ∨
      (judge f = .notYetReady ∧ ∃ ds, spinLoop judge fs = some (ds, o, left) ∧ cs = .statusRead f :: ds) := by
  rw [spinLoop] at h
  cases hf : judge f with
  | ready => simp only [hf] at h; cases h; exact .inl ⟨rfl, rfl, rfl⟩
  | fault k => simp only [hf] at h; cases h; exact .inl ⟨rfl, rfl, rfl⟩
  | notYetReady =>
    simp only [hf, Option.map_eq_some_iff] at h
    obtain ⟨⟨ds, o', left'⟩, hloop, heq⟩ := h
    cases heq
    exact .inr ⟨rfl, ds, hloop, rfl⟩

/-- The steps of a spin-retry loop, up to the snapshot `f` that ends it. -/
structure Spun (judge : Snapshot → BusOutcome Unit) (cs : List Call) (o : Option FaultKind) (left : List Snapshot)
    (f : Snapshot) (s t : State) : Prop where
  ends : judge f = spinEnd o
  runs : ∃ ds, RunsTo ds s t ∧ cs = ds ++ [.statusRead f]
  same : SameTransactor s t
  script : t.script = { s.script with snapshots := f :: left }

/-- Every snapshot before the last is one step, which stays (R81). -/
theorem OnScript.spins {judge : Snapshot → BusOutcome Unit} {i : Nat} {cs : List Call} {o : Option FaultKind}
    {left : List Snapshot} (fs : List Snapshot) {s : State} (h : OnScript s) (hat : Awaits judge i s)
    (hout : i < s.out.length) (hkeep : i < s.keep.length) (hscript : s.script.snapshots = fs)
    (hloop : spinLoop judge fs = some (cs, o, left)) : ∃ f t, Spun judge cs o left f s t := by
  induction fs generalizing s cs with
  | nil => cases hloop
  | cons f fs ih =>
    rcases spinLoop_cons_eq_some hloop with ⟨hend, rfl, rfl⟩ | ⟨hnot, ds, hrest, rfl⟩
    · exact ⟨f, s, hend, ⟨[], .refl s, rfl⟩, .refl s, by rw [← hscript]⟩
    · obtain ⟨u, hread, rfl⟩ := statusRead_answers (h.shownFlags_eq hscript)
      have hr := statusRead_next hread
      have hsame := hr.bus.transactor
      have hleft := statusRead_script h.scripted hread
      have hstep : step s = .next u := by
        rw [step_eq_sequencerStep h.waits h.uninterrupted, h.deviceMove_eq]
        exact sequencerStep_of_notYetReady hat hout hkeep hread hnot
      have hruns : RunsTo [.statusRead u.per.flags] s u :=
        .of_step (q := s.seq) (r := s.res) (bytes := s.inb) hstep hr.calls hsame hr.bus.env hr.bus.host
      obtain ⟨g, t, hspun⟩ := ih (hruns.onScript h) (hat.congr hsame.seq) (by rwa [hsame.out]) (by rwa [hsame.keep])
        (by rw [hleft, hscript]; rfl) hrest
      obtain ⟨es, hes, rfl⟩ := hspun.runs
      exact ⟨g, t, hspun.ends, ⟨_, hruns.trans hes, rfl⟩, hsame.trans hspun.same, by rw [hspun.script, hleft]⟩

/-! ### The three ways a loop goes on (R74 to R76, R78) -/

/-- Where the transaction stands after a loop of the byte `i`, and what is left of the script. -/
structure Stands (q : Seq) (r : Option FaultKind) (bytes : List Byte) (left : Script) (s : State) : Prop where
  seq : s.seq = q
  res : s.res = r
  inb : s.inb = bytes
  script : s.script = left

/-- A loop of either attempt that ends with a fault goes to the close with the fault stored. -/
theorem OnScript.aborts {judge : Snapshot → BusOutcome Unit} {i : Nat} {cs : List Call} {k : FaultKind}
    {left : List Snapshot} {s : State} (h : OnScript s) (hat : Awaits judge i s) (hout : i < s.out.length)
    (hkeep : i < s.keep.length) (hloop : spinLoop judge s.script.snapshots = some (cs, some k, left)) :
    ∃ t, RunsTo cs s t ∧ Stands (.close i) (some k) s.inb { s.script with snapshots := left } t := by
  obtain ⟨f, u, hspun⟩ := h.spins _ hat hout hkeep rfl hloop
  obtain ⟨ds, hruns, rfl⟩ := hspun.runs
  have hu := hruns.onScript h
  have hsame := hspun.same
  obtain ⟨t, hread, rfl⟩ := statusRead_answers (hu.shownFlags_eq (congrArg Script.snapshots hspun.script))
  have hr := statusRead_next hread
  have hstep : step u = .next (abortTransaction k i t) := by
    rw [step_eq_sequencerStep hu.waits hu.uninterrupted, hu.deviceMove_eq]
    exact sequencerStep_of_fault (hat.congr hsame.seq) (by rwa [hsame.out]) (by rwa [hsame.keep]) hread hspun.ends
  refine ⟨_, hruns.trans (.of_step hstep hr.calls (hr.bus.transactor.sendRow i (.fault k)) hr.bus.env hr.bus.host), rfl,
    rfl, hr.bus.transactor.inb.trans hsame.inb, ?_⟩
  rw [abortTransaction_script, statusRead_script hu.scripted hread, hspun.script]
  rfl

/-- A send loop that ends ready hands its byte over and goes on to the receive of the same byte. -/
theorem OnScript.sends {i : Nat} {b : Byte} {cs : List Call} {left : List Snapshot} {s : State} (h : OnScript s)
    (hseq : s.seq = .send i) (hout : s.out[i]? = some b) (hkeep : i < s.keep.length)
    (hloop : spinLoop classifySend s.script.snapshots = some (cs, none, left)) :
    ∃ t, RunsTo (cs ++ [.dataWrite b]) s t ∧ Stands (.recv i) s.res s.inb { s.script with snapshots := left } t := by
  obtain ⟨f, u, hspun⟩ := h.spins _ (.inl ⟨hseq, rfl⟩) (List.getElem?_eq_some_iff.1 hout).1 hkeep rfl hloop
  obtain ⟨ds, hruns, rfl⟩ := hspun.runs
  have hu := hruns.onScript h
  have hsame := hspun.same
  have hready : classifySend f = .ready () := hspun.ends
  obtain ⟨t, hattempt, hhost, hdone⟩ := attemptSend_completes (b := b)
    (hu.shownFlags_eq (congrArg Script.snapshots hspun.script)) fun _ => hu.frameTaken_eq
  rw [hready] at hattempt
  have hstep : step u = .next (t.goto (.recv i)) := by
    rw [step_eq_sequencerStep hu.waits hu.uninterrupted, hu.deviceMove_eq]
    exact sequencerStep_of_attemptSend (hsame.seq.trans hseq) (hsame.out ▸ hout) hattempt
  have hcalls := hdone.calls
  rw [if_pos hready] at hcalls
  have hlast := RunsTo.of_step hstep hcalls (hdone.transactor.sendRow i (.ready ())) hdone.env hhost
  refine ⟨t.goto (.recv i), by simpa using hruns.trans hlast, rfl, hdone.transactor.res.trans hsame.res,
    hdone.transactor.inb.trans hsame.inb, ?_⟩
  rw [goto_script, attemptSend_script hu.scripted hattempt, hspun.script]
  rfl

/-- A receive loop that ends ready takes a byte, keeps it if its position is kept, and goes on to the next byte or to the
close. -/
theorem OnScript.receives {i : Nat} {kept : Bool} {v : Byte} {vs : List Byte} {cs : List Call} {left : List Snapshot}
    {s : State} (h : OnScript s) (hseq : s.seq = .recv i) (hout : i < s.out.length) (hkeep : s.keep[i]? = some kept)
    (hloop : spinLoop classifyReceive s.script.snapshots = some (cs, none, left)) (hbytes : s.script.bytes = v :: vs) :
    ∃ t, RunsTo (cs ++ [.dataRead v]) s t ∧
      Stands (if i + 1 < s.n then .send (i + 1) else .close s.n) s.res (if kept then s.inb ++ [v] else s.inb)
        ⟨left, vs⟩ t := by
  obtain ⟨f, u, hspun⟩ := h.spins _ (.inr ⟨hseq, rfl⟩) hout (List.getElem?_eq_some_iff.1 hkeep).1 rfl hloop
  obtain ⟨ds, hruns, rfl⟩ := hspun.runs
  have hu := hruns.onScript h
  have hsame := hspun.same
  have hready : classifyReceive f = .ready () := hspun.ends
  have hshown : shownByte u = some v := by simp [shownByte, hu.scripted, hspun.script, hbytes]
  obtain ⟨t, hattempt, hhost, hdone⟩ := attemptReceive_completes
    (hu.shownFlags_eq (congrArg Script.snapshots hspun.script)) fun _ => hshown
  rw [receiveOutcome_of_ready v hready] at hattempt hdone
  have hstep : step u = .next (collect kept v i t) := by
    rw [step_eq_sequencerStep hu.waits hu.uninterrupted, hu.deviceMove_eq]
    exact sequencerStep_of_attemptReceive (hsame.seq.trans hseq) (hsame.keep ▸ hkeep) hattempt
  obtain ⟨-, -, hcalls⟩ := hdone.taken v rfl
  have htr := hsame.trans hdone.transactor
  have hlast := RunsTo.of_step hstep hcalls (hdone.transactor.recvRow kept i (.ready v)) hdone.env hhost
  refine ⟨collect kept v i t, by simpa using hruns.trans hlast, by rw [collect_seq, htr.n], htr.res, by rw [collect_inb, htr.inb], ?_⟩
  rw [collect_script, attemptReceive_script_of_ready hu.scripted hattempt, hspun.script, hbytes]
  rfl

/-! ### The byte loop (R79) -/

theorem bigReceive_eq_inl {sc left : Script} {ds : List Call} {k : FaultKind}
    (h : bigReceive sc = some (ds, .inl k, left)) :
    ∃ fs, spinLoop classifyReceive sc.snapshots = some (ds, some k, fs) ∧ left = { sc with snapshots := fs } := by
  rw [bigReceive] at h
  split at h
  · cases h
  · next hloop => cases h; exact ⟨_, hloop, rfl⟩
  · split at h <;> cases h

theorem bigReceive_eq_inr {sc left : Script} {ds : List Call} {v : Byte} (h : bigReceive sc = some (ds, .inr v, left)) :
    ∃ cs fs vs, spinLoop classifyReceive sc.snapshots = some (cs, none, fs) ∧ sc.bytes = v :: vs ∧
      ds = cs ++ [.dataRead v] ∧ left = ⟨fs, vs⟩ := by
  rw [bigReceive] at h
  split at h
  · cases h
  · cases h
  · next hloop =>
    split at h
    · cases h
    · next hbytes => cases h; exact ⟨_, _, _, hloop, hbytes, rfl, rfl⟩

/-- What the big-step reading makes of one byte: a fault of its send, a fault of its receive, or the bytes after it. -/
theorem bigBytes_cons_eq_some {b : Byte} {bs : List Byte} {k : Bool} {ks : List Bool} {acc : List Byte} {sc left : Script}
    {cs : List Call} {r : Res (List Byte)} (h : bigBytes (b :: bs) (k :: ks) acc sc = some (cs, r, left)) :
    (∃ e fs, spinLoop classifySend sc.snapshots = some (cs, some e, fs) ∧ r = .err e ∧
      left = { sc with snapshots := fs }) ∨
    ∃ ss fs ds o sc', spinLoop classifySend sc.snapshots = some (ss, none, fs) ∧
      bigReceive { sc with snapshots := fs } = some (ds, o, sc') ∧
      ((∃ e, o = .inl e ∧ r = .err e ∧ left = sc' ∧ cs = ss ++ [.dataWrite b] ++ ds) ∨
        ∃ v es, o = .inr v ∧ bigBytes bs ks (if k then acc ++ [v] else acc) sc' = some (es, r, left) ∧
          cs = ss ++ [.dataWrite b] ++ ds ++ es) := by
  rw [bigBytes] at h
  split at h
  · cases h
  · next hsend => cases h; exact .inl ⟨_, _, hsend, rfl, rfl⟩
  · next hsend =>
    split at h
    · cases h
    · next hrecv => cases h; exact .inr ⟨_, _, _, _, _, hsend, hrecv, .inl ⟨_, rfl, rfl, rfl, by simp⟩⟩
    · next hrecv =>
      obtain ⟨⟨es, r', left'⟩, hrest, heq⟩ := Option.map_eq_some_iff.1 h
      cases heq
      exact .inr ⟨_, _, _, _, _, hsend, hrecv, .inr ⟨_, es, rfl, hrest, by simp⟩⟩

/-- The transaction stands before its byte `i`, with `bs` yet to send and their masks `ks`, and no fault seen; past the last
byte it stands at the close. -/
structure AtByte (i : Nat) (bs : List Byte) (ks : List Bool) (s : State) : Prop where
  seq : s.seq = if i < s.n then .send i else .close s.n
  out : s.out.drop i = bs
  keep : s.keep.drop i = ks
  n : s.n = s.out.length
  res : s.res = none

/-- The transaction stands at the close, with the result `r` to return. -/
def Closing (r : Res (List Byte)) (s : State) : Prop :=
  (∃ i, s.seq = .close i) ∧
    match r with
    | .ok bytes => s.res = none ∧ s.inb = bytes
    | .err k => s.res = some k

theorem Stands.closing_err {i : Nat} {k : FaultKind} {bytes : List Byte} {left : Script} {s : State}
    (h : Stands (.close i) (some k) bytes left s) : Closing (.err k) s := ⟨⟨i, h.seq⟩, h.res⟩

theorem AtByte.closing_ok {i : Nat} {ks : List Bool} {s : State} (h : AtByte i [] ks s) : Closing (.ok s.inb) s := by
  have hpast : ¬ i < s.n := by
    rw [h.n, Nat.not_lt]
    exact List.drop_eq_nil_iff.1 h.out
  exact ⟨⟨s.n, by rw [h.seq, if_neg hpast]⟩, h.res, rfl⟩

theorem getElem?_of_drop_eq_cons {α : Type} {l xs : List α} {i : Nat} {x : α} (h : l.drop i = x :: xs) :
    l[i]? = some x ∧ l.drop (i + 1) = xs := by
  constructor
  · rw [← List.head?_drop, h]; rfl
  · rw [← List.tail_drop, h]; rfl

/-- The steps of the byte loop make the calls of its big-step reading and reach the close with its result. -/
theorem OnScript.transfers (bs : List Byte) {ks : List Bool} {i : Nat} {cs : List Call} {r : Res (List Byte)}
    {left : Script} {s : State} (h : OnScript s) (hat : AtByte i bs ks s)
    (hbig : bigBytes bs ks s.inb s.script = some (cs, r, left)) :
    ∃ t, RunsTo cs s t ∧ t.script = left ∧ Closing r t := by
  induction bs generalizing ks i cs s with
  | nil =>
    rw [bigBytes] at hbig
    cases hbig
    exact ⟨s, .refl s, rfl, hat.closing_ok⟩
  | cons b bs ih =>
    cases ks with
    | nil => rw [bigBytes] at hbig; cases hbig
    | cons k ks =>
      obtain ⟨hbyte, hbytes⟩ := getElem?_of_drop_eq_cons hat.out
      obtain ⟨hmask, hmasks⟩ := getElem?_of_drop_eq_cons hat.keep
      obtain ⟨hout, -⟩ := List.getElem?_eq_some_iff.1 hbyte
      obtain ⟨hkeep, -⟩ := List.getElem?_eq_some_iff.1 hmask
      have hseq : s.seq = .send i := by rw [hat.seq, if_pos (hat.n ▸ hout)]
      rcases bigBytes_cons_eq_some hbig with ⟨e, fs, hsend, rfl, rfl⟩ | ⟨ss, fs, ds, o, sc', hsend, hrecv, hafter⟩
      · obtain ⟨t, hruns, ht⟩ := h.aborts (.inl ⟨hseq, rfl⟩) hout hkeep hsend
        exact ⟨t, hruns, ht.script, ht.closing_err⟩
      · obtain ⟨u, hsent, hu⟩ := h.sends hseq hbyte hkeep hsend
        have hscript := hsent.onScript h
        have hops := hsent.operands
        rw [← hu.script] at hrecv
        rcases hafter with ⟨e, rfl, rfl, rfl, rfl⟩ | ⟨v, es, rfl, hrest, rfl⟩
        · obtain ⟨fs', hloop, rfl⟩ := bigReceive_eq_inl hrecv
          obtain ⟨t, hruns, ht⟩ :=
            hscript.aborts (.inr ⟨hu.seq, rfl⟩) (by rwa [hops.out]) (by rwa [hops.keep]) hloop
          exact ⟨t, hsent.trans hruns, ht.script, ht.closing_err⟩
        · obtain ⟨rs, fs', vs, hloop, htaken, rfl, rfl⟩ := bigReceive_eq_inr hrecv
          obtain ⟨w, hgot, hw⟩ := hscript.receives hu.seq (by rwa [hops.out]) (hops.keep ▸ hmask) hloop htaken
          have hsofar := hsent.trans hgot
          have hnext : AtByte (i + 1) bs ks w :=
            ⟨by rw [hw.seq, hgot.operands.n], by rw [hsofar.operands.out, hbytes], by rw [hsofar.operands.keep, hmasks],
              by rw [hsofar.operands.n, hsofar.operands.out, hat.n], hw.res.trans (hu.res.trans hat.res)⟩
          rw [← hw.script, ← hu.inb, ← hw.inb] at hrest
          obtain ⟨t, hruns, ht⟩ := ih (hsofar.onScript h) hnext hrest
          exact ⟨t, hsofar.trans hruns, ht⟩

/-! ### The whole EXCHANGE (R73, R77, R79) -/

theorem bigExchange_eq_some {bytes : List Byte} {mask : List Bool} {sc left : Script} {cs : List Call}
    {r : Res (List Byte)} (h : bigExchange bytes mask sc = some (cs, r, left)) :
    ∃ ds, bigBytes bytes mask [] sc = some (ds, r, left) ∧ cs = .selectAssert :: (ds ++ [.selectDeassert]) := by
  obtain ⟨⟨ds, r', left'⟩, hbytes, heq⟩ := Option.map_eq_some_iff.1 h
  cases heq
  exact ⟨ds, hbytes, rfl⟩

theorem openedState_onScript {c : Caller} {bytes : List Byte} {mask : List Bool} {s : State} (hcfg : s.selCfg = true)
    (henv : s.env = .scripted) (hmasked : s.host.irqOn = false) : OnScript (openedState c bytes mask s) :=
  ⟨henv, by simp [waitsForBus, openedState], hmasked, hcfg⟩

/-- A transaction opens before its first byte. -/
theorem openedState_atByte (c : Caller) (bytes : List Byte) (mask : List Bool) (s : State) :
    AtByte 0 bytes mask (openedState c bytes mask s) := by
  refine ⟨?_, rfl, rfl, rfl, rfl⟩
  cases bytes <;> rfl

theorem Closing.returnedResult {r : Res (List Byte)} {s : State} (h : Closing r s) :
    returnedResult .exchange s.res s.inb = .exchange r := by
  obtain ⟨-, hreturn⟩ := h
  cases r with
  | ok bytes =>
    obtain ⟨hres, hinb⟩ := hreturn
    rw [hres, hinb]
    rfl
  | err k =>
    rw [show s.res = some k from hreturn]
    rfl

/-! ### The obligation -/

/-- Settles O23: the opened transaction runs through its byte loop to the close, and one step more returns the result. -/
theorem exchangeStepsRefineBigStep : Obligations.ExchangeStepsRefineBigStep := by
  intro s bytes mask cs r left hready henv hmasked hmask hlong hbig
  obtain ⟨ds, hbytes, rfl⟩ := bigExchange_eq_some hbig
  have ⟨hcfg, _⟩ := hready
  have hopen := openedState_onScript (c := .exchange) (bytes := bytes) (mask := mask) hcfg henv hmasked
  obtain ⟨t, hruns, hscript, hclosing⟩ := hopen.transfers bytes (openedState_atByte .exchange bytes mask s) hbytes
  have ht := hruns.onScript hopen
  obtain ⟨k, hrun⟩ := hruns.run
  have ⟨⟨i, hseq⟩, _⟩ := hclosing
  obtain ⟨u, hclose, hu, hcalls, -, -, -, -, hleft, -, hresult, -⟩ :=
    closeStepDeassertsAndReturns t i ht.waits ht.uninterrupted ht.configured hseq
  refine ⟨_, k + 1, u, openTransaction_answers hready hmask hlong, ?run, hu.seq, hu.busy, hu.sel, ?calls,
    hleft.trans hscript, ?result⟩
  case run => exact (run_add_of_run k 1 hrun).trans (run_succ_of_step (M := Sys2Proof.core) 0 hclose)
  case calls =>
    rw [hcalls, hruns.calls]
    simp [openedState]
  case result =>
    have howner : t.owner = s.host.context := hruns.operands.owner
    have hcaller : t.caller = .exchange := hruns.operands.caller
    rw [howner, hcaller] at hresult
    rw [hresult, ← hclosing.returnedResult]
    cases t.res <;> rfl

end Sys2Proof.Machine

/-! ## WRITE and READ: their wire forms, the buffer of a failed READ, and the round trip in the reference environment -/

namespace Sys2Proof.Machine

/-! ### Locations in ascending order (R36) -/

theorem regsRead_succ (d : Device) (a n : Nat) :
    regsRead d a (n + 1) = regRead d (BitVec.ofNat 6 a) :: regsRead d (a + 1) n := by
  simp [regsRead, List.range_succ_eq_map, Function.comp_def, Nat.add_comm, Nat.add_left_comm]

@[simp] theorem regsRead_length (d : Device) (a n : Nat) : (regsRead d a n).length = n := by simp [regsRead]

theorem regsRead_congr {d e : Device} (h : e.regs = d.regs) (a n : Nat) : regsRead e a n = regsRead d a n :=
  List.map_congr_left fun _ _ => regRead_congr h _

/-! ### The frames of one transaction, as the reference device takes them (R163, R164) -/

/-- The reference device's replies to frames in order, and its state after them. -/
def referenceFrames (dummy : Byte) : List Byte → Device → Out (List Byte × Device)
  | [], d => .next ([], d)
  | b :: bs, d =>
      andThen (referenceFrame dummy b d) fun x =>
        andThen (referenceFrames dummy bs x.2) fun y => .next (x.1 :: y.1, y.2)

theorem referenceFrames_cons_eq_next {dummy b : Byte} {bs rs : List Byte} {d f : Device} :
    referenceFrames dummy (b :: bs) d = .next (rs, f) ↔
      ∃ r e rs', referenceFrame dummy b d = .next (r, e) ∧ referenceFrames dummy bs e = .next (rs', f) ∧
        rs = r :: rs' := by
  simp [referenceFrames, andThen_eq_next, @eq_comm _ rs]

/-- The device takes `n` more data frames of a transfer in the direction `dir`, the first one at location `c`. -/
structure TakesData (dir : Bool) (c n : Nat) (d : Device) : Prop where
  phase : d.phase = .data
  dir : d.dir = dir
  ptr : d.ptr.toNat = c
  room : c + n ≤ 64
  multi : 1 < n → d.multi = true

/-- A data frame that is not the last leaves the device at the next location (R36, R164). -/
theorem TakesData.moved {dir : Bool} {c n : Nat} {d e : Device} (h : TakesData dir c (n + 1) d)
    (hmove : PointerMoved d e) (hn : 0 < n) : TakesData dir (c + 1) n e := by
  have hroom := h.room
  have hmulti : d.multi = true := h.multi (by omega)
  have hlast : d.ptr ≠ 0x3F := fun heq => by
    have hc : c = 0x3F := by rw [← h.ptr, heq]; rfl
    omega
  obtain ⟨hptr, hphase⟩ := hmove.next hmulti hlast
  exact ⟨hphase, hmove.dir.trans h.dir, hptr.trans (by rw [h.ptr]), by omega, fun _ => hmove.multi.trans hmulti⟩

/-- The command byte of an access prepares the device for its data frames (R49 to R51). -/
theorem takesData_latch (dir : Bool) {a : RegAddr} {n : Nat} (d : Device) (h : a.toNat + n ≤ 64) :
    TakesData dir a.toNat n (d.latch (encodeCmd dir n a)) :=
  ⟨rfl, cmdDir_encodeCmd dir n a, by simp [Device.latch], h, fun hn => by simp [Device.latch, hn]⟩

/-- The data frames of a write put their bytes in consecutive locations and leave those below alone (R86, R89). -/
theorem referenceFrames_of_write (dummy : Byte) (p : List Byte) {c : Nat} {d : Device}
    (h : p ≠ [] → TakesData false c p.length d) :
    ∃ rs e, referenceFrames dummy p d = .next (rs, e) ∧ regsRead e c p.length = p ∧
      ∀ a : RegAddr, a.toNat < c → regRead e a = regRead d a := by
  induction p generalizing c d with
  | nil => exact ⟨[], d, rfl, rfl, fun _ _ => rfl⟩
  | cons b p ih =>
    have hd := h (List.cons_ne_nil b p)
    have hstored : (regWrite d d.ptr b).advancePtr.regs = (regWrite d d.ptr b).regs := advancePtr_regs _
    obtain ⟨hsame, hothers⟩ := regRead_of_regs_write hstored
    obtain ⟨rs, e, hframes, hread, hbelow⟩ := ih fun hp =>
      hd.moved (advancePtr_pointerMoved (e := regWrite d d.ptr b) hd.phase rfl rfl rfl rfl) (List.length_pos_iff.2 hp)
    have hptr : BitVec.ofNat 6 c = d.ptr := by rw [← hd.ptr, BitVec.ofNat_toNat, BitVec.setWidth_eq]
    have hframe := referenceFrame_of_write (dummy := dummy) (b := b) hd.phase hd.dir
    refine ⟨_, e, referenceFrames_cons_eq_next.2 ⟨_, _, rs, hframe, hframes, rfl⟩, ?_, fun a ha => ?_⟩
    · rw [List.length_cons, regsRead_succ, hread, hptr, hbelow _ (by rw [hd.ptr]; omega), hsame]
    · rw [hbelow a (by omega)]
      exact hothers a fun heq => by rw [heq, hd.ptr] at ha; omega

/-- The data frames of a read reply what consecutive locations hold, and store nothing (R87, R91). -/
theorem referenceFrames_of_read (dummy : Byte) (bs : List Byte) {c : Nat} {d : Device}
    (h : bs ≠ [] → TakesData true c bs.length d) :
    ∃ e, referenceFrames dummy bs d = .next (regsRead d c bs.length, e) ∧ e.regs = d.regs := by
  induction bs generalizing c d with
  | nil => exact ⟨d, rfl, rfl⟩
  | cons b bs ih =>
    have hd := h (List.cons_ne_nil b bs)
    have hkept : d.advancePtr.regs = d.regs := advancePtr_regs d
    obtain ⟨e, hframes, hregs⟩ := ih fun hbs =>
      hd.moved (advancePtr_pointerMoved hd.phase rfl rfl rfl rfl) (List.length_pos_iff.2 hbs)
    have hptr : BitVec.ofNat 6 c = d.ptr := by rw [← hd.ptr, BitVec.ofNat_toNat, BitVec.setWidth_eq]
    refine ⟨e, referenceFrames_cons_eq_next.2 ⟨_, _, _, referenceFrame_of_read hd.phase hd.dir, hframes, ?_⟩,
      hregs.trans hkept⟩
    rw [List.length_cons, regsRead_succ, hptr, regsRead_congr hkept]

/-- All frames of a WRITE to a device that awaits its command: afterwards the locations hold the payload. -/
theorem referenceFrames_writeFrames (dummy : Byte) {a : RegAddr} {p : List Byte} (d : Device)
    (h : a.toNat + p.length ≤ 64) :
    ∃ rs e, referenceFrames dummy (writeFrames a p) { d with phase := .awaitCmd } = .next (rs, e) ∧
      regsRead e a.toNat p.length = p := by
  obtain ⟨rs, e, hframes, hread, -⟩ := referenceFrames_of_write dummy p fun _ =>
    takesData_latch false { d with phase := .awaitCmd } h
  exact ⟨_, e, referenceFrames_cons_eq_next.2 ⟨_, _, rs, referenceFrame_of_awaitCmd rfl, hframes, rfl⟩, hread⟩

/-- All frames of a READ to such a device: after the command's reply, the replies are what the locations hold. -/
theorem referenceFrames_readFrames (dummy : Byte) {a : RegAddr} {n : Nat} (d : Device) (h : a.toNat + n ≤ 64) :
    ∃ e, referenceFrames dummy (readFrames a n) { d with phase := .awaitCmd } =
      .next (dummy :: regsRead d a.toNat n, e) ∧ e.regs = d.regs := by
  obtain ⟨e, hframes, hregs⟩ := referenceFrames_of_read dummy (List.replicate n Config.fill) fun _ => by
    simpa using takesData_latch true { d with phase := .awaitCmd } h
  rw [List.length_replicate] at hframes
  exact ⟨e, referenceFrames_cons_eq_next.2 ⟨_, _, _, referenceFrame_of_awaitCmd rfl, hframes, rfl⟩, hregs⟩

/-! ### The bytes a transaction keeps (R17, R76) -/

/-- The replies at the kept positions. -/
def keptBytes : List Bool → List Byte → List Byte
  | true :: ks, r :: rs => r :: keptBytes ks rs
  | false :: ks, _ :: rs => keptBytes ks rs
  | [], _ => []
  | _ :: _, [] => []

theorem keptBytes_cons (k : Bool) (ks : List Bool) (r : Byte) (rs : List Byte) :
    keptBytes (k :: ks) (r :: rs) = (if k then [r] else []) ++ keptBytes ks rs := by
  cases k <;> rfl

/-- A READ keeps the replies to its fillers (R87). -/
theorem keptBytes_readKeep (r : Byte) (rs : List Byte) : keptBytes (readKeep rs.length) (r :: rs) = rs := by
  rw [readKeep, keptBytes_cons]
  induction rs with
  | nil => rfl
  | cons x xs ih => simpa [List.replicate_succ, keptBytes] using ih

/-! ### The receiver of the reference peripheral, and its waits (R161, R162) -/

/-- No overrun, and the receiver holds this byte, or none. -/
structure Receiver (held : Option Byte) (p : Peripheral) : Prop where
  full : p.rxFull = held.isSome
  noOverrun : p.ovr = false
  byte : ∀ r, held = some r → p.rxByte = r

/-- A StatusRead leaves the receiver as it is. -/
theorem Receiver.statusRead {held : Option Byte} {s t : State} (h : Receiver held s.per) (hread : statusRead s = .next t) :
    Receiver held t.per :=
  have hk := statusRead_keeps hread
  ⟨hk.rxFull.trans h.full, (statusRead_next hread).ovr.trans h.noOverrun, fun r hr => hk.rxByte.trans (h.byte r hr)⟩

/-- A frame that finds the receiver empty leaves its reply there. -/
theorem Receiver.receive {p : Peripheral} (h : Receiver none p) (r : Byte) : Receiver (some r) (p.receive r) := by
  rw [receive_of_empty h.full]
  exact ⟨rfl, h.noOverrun, fun _ heq => Option.some.inj heq⟩

/-- Read one after another, the snapshots are not ready `w` times and ready from then on. -/
def ReadyAfter (judge : Snapshot → BusOutcome Unit) (w : Nat) (p : Peripheral) : Prop :=
  ∀ k, judge (referenceFlags (Peripheral.tick^[k] p)) = if w ≤ k then .ready () else .notYetReady

theorem ReadyAfter.ticked {judge : Snapshot → BusOutcome Unit} {w : Nat} {p : Peripheral} (h : ReadyAfter judge (w + 1) p)
    (f : Snapshot) : ReadyAfter judge w { p.tick with flags := f } := by
  intro k
  have hflags : referenceFlags (Peripheral.tick^[k] { p.tick with flags := f }) =
      referenceFlags (Peripheral.tick^[k + 1] p) := by
    rw [Function.iterate_succ_apply, iterate_tick, iterate_tick]
    rfl
  simpa [hflags] using h (k + 1)

theorem ReadyAfter.first {judge : Snapshot → BusOutcome Unit} {w : Nat} {p : Peripheral} (h : ReadyAfter judge w p) :
    judge (referenceFlags p) = if w = 0 then .ready () else .notYetReady := by
  simpa using h 0

theorem Receiver.readyAfter_send {held : Option Byte} {p : Peripheral} (h : Receiver held p) :
    ReadyAfter classifySend p.waitTx p := by
  intro k
  have ⟨_, _, hcount, _⟩ := referenceDelaysCountDown
  obtain ⟨hready, -⟩ := hcount p k
  have hovr : (Peripheral.tick^[k] p).ovr = false := by rw [iterate_tick]; exact h.noOverrun
  rw [classifySend, classify_of_no_fault _ hovr rfl rfl, hready]
  simp

theorem Receiver.readyAfter_receive {r : Byte} {p : Peripheral} (h : Receiver (some r) p) :
    ReadyAfter classifyReceive p.waitRx p := by
  intro k
  have ⟨_, _, hcount, _⟩ := referenceDelaysCountDown
  obtain ⟨-, hready, -⟩ := hcount p k
  have hovr : (Peripheral.tick^[k] p).ovr = false := by rw [iterate_tick]; exact h.noOverrun
  rw [classifyReceive, classify_of_no_fault _ hovr rfl rfl, hready h.full]
  simp

/-! ### One byte in the reference environment (R74 to R76) -/

/-- A transaction of the running context, in the reference environment with the interrupt source disabled. -/
structure OnReference (s : State) : Prop where
  reference : s.env = .reference
  waits : waitsForBus s = true
  masked : s.host.irqOn = false
  configured : s.selCfg = true

theorem RunsTo.onReference {cs : List Call} {s t : State} (h : RunsTo cs s t) (hs : OnReference s) : OnReference t where
  reference := h.env.trans hs.reference
  waits := by simpa only [waitsForBus, h.busy, h.operands.owner, h.host] using hs.waits
  masked := h.host ▸ hs.masked
  configured := h.selCfg.trans hs.configured

theorem run_par {k : Nat} {s t : State} (h : Sys2Proof.core.run k s = .next t) : t.par = s.par := by
  induction k generalizing s with
  | zero => cases h; rfl
  | succ k ih =>
    simp only [Host.Core.run] at h
    split at h
    · next u hstep => exact (ih h).trans (stepKeepsParameters s u hstep).1
    · cases h
    · cases h

theorem RunsTo.par {cs : List Call} {s t : State} (h : RunsTo cs s t) : t.par = s.par := by
  obtain ⟨k, hrun⟩ := h.run
  exact run_par hrun

theorem OnReference.step_eq {s : State} (h : OnReference s) : step s = sequencerStep s := by
  rw [step_eq_sequencerStep h.waits (interruptTaken_deviceMove_of_masked h.masked), deviceMove_of_reference h.reference]

/-- The retries of one attempt: the transaction stays where it is, until the next snapshot is ready. -/
structure Retried (judge : Snapshot → BusOutcome Unit) (held : Option Byte) (s t : State) : Prop where
  runs : ∃ cs, RunsTo cs s t
  same : SameTransactor s t
  dev : t.dev = s.dev
  receiver : Receiver held t.per
  ready : judge (referenceFlags t.per) = .ready ()

theorem OnReference.retries {judge : Snapshot → BusOutcome Unit} {i : Nat} {held : Option Byte} (w : Nat) {s : State}
    (h : OnReference s) (hat : Awaits judge i s) (hout : i < s.out.length) (hkeep : i < s.keep.length)
    (hrx : Receiver held s.per) (hw : ReadyAfter judge w s.per) : ∃ t, Retried judge held s t := by
  induction w generalizing s with
  | zero => exact ⟨s, ⟨[], .refl s⟩, .refl s, rfl, hrx, hw.first⟩
  | succ w ih =>
    have hread := statusRead_of_reference h.reference
    have hr := statusRead_next hread
    have hsame := hr.bus.transactor
    have hstep := h.step_eq.trans (sequencerStep_of_notYetReady hat hout hkeep hread hw.first)
    have hruns := RunsTo.of_step (q := s.seq) (r := s.res) (bytes := s.inb) hstep hr.calls hsame hr.bus.env hr.bus.host
    obtain ⟨t, ht⟩ := ih (hruns.onReference h) (hat.congr hsame.seq) (by rwa [hsame.out]) (by rwa [hsame.keep])
      (hrx.statusRead hread) (hw.ticked _)
    obtain ⟨cs, hcs⟩ := ht.runs
    exact ⟨t, ⟨_, hruns.trans hcs⟩, hsame.trans ht.same, ht.dev.trans hr.dev, ht.receiver, ht.ready⟩

/-- The calls of an attempt come after those before it (R66, R68). -/
theorem Attempted.appends {s t : State} (h : Attempted s t) : ∃ cs, t.calls = s.calls ++ cs := by
  rcases h.calls with ⟨f, hcalls⟩ | ⟨f, b, hcalls, -⟩ | ⟨f, v, hcalls, -⟩ <;> exact ⟨_, hcalls⟩

theorem shownFlags_of_reference {s : State} (h : s.env = .reference) : shownFlags s = some (referenceFlags s.per) := by
  simp only [shownFlags, h]

/-- Ready, with the receiver empty: the frame happens, and the receiver holds the device's reply (R162). -/
theorem attemptSend_of_reference {s : State} {b r : Byte} {d : Device} (henv : s.env = .reference)
    (hrx : Receiver none s.per) (hready : classifySend (referenceFlags s.per) = .ready ())
    (hframe : referenceFrame s.par.dummy b s.dev = .next (r, d)) :
    ∃ t, attemptSend b s = .next (.ready (), t) ∧ t.dev = d ∧ Receiver (some r) t.per := by
  obtain ⟨u, hread, hflags⟩ := statusRead_answers (shownFlags_of_reference henv)
  have hr := statusRead_next hread
  have hempty := hrx.statusRead hread
  rw [← hr.bus.par, ← hr.dev] at hframe
  have hwrite := (dataWrite_next_iff_of_reference (hr.bus.env.trans henv)).2 ⟨r, d, hframe, rfl⟩
  rw [attemptSend_of_ready b hread (hflags ▸ hready), hwrite, andThen_next_left]
  have hhanded : Receiver none (u.handOver b).per := ⟨hempty.full, hempty.noOverrun, hempty.byte⟩
  exact ⟨_, rfl, rfl, hhanded.receive r⟩

/-- Ready, with a byte received: it is taken, and the receiver is empty (R162). -/
theorem attemptReceive_of_reference {s : State} {r : Byte} (henv : s.env = .reference) (hrx : Receiver (some r) s.per)
    (hready : classifyReceive (referenceFlags s.per) = .ready ()) :
    ∃ t, attemptReceive s = .next (.ready r, t) ∧ t.dev = s.dev ∧ Receiver none t.per := by
  obtain ⟨u, hread, hflags⟩ := statusRead_answers (shownFlags_of_reference henv)
  have hr := statusRead_next hread
  have hfull := hrx.statusRead hread
  rw [attemptReceive_of_ready hread (hflags ▸ hready), dataRead_of_reference (hr.bus.env.trans henv), andThen_next_left]
  rw [receiveByte_per, hfull.byte r rfl]
  exact ⟨_, rfl, hr.dev, rfl, hfull.noOverrun, fun _ heq => by cases heq⟩

/-- Where a run inside one transaction ends: the position, the bytes kept so far, the device and the receiver. It stores no
fault. -/
structure Reached (q : Seq) (inb : List Byte) (d : Device) (held : Option Byte) (s t : State) : Prop where
  runs : ∃ cs, RunsTo cs s t
  seq : t.seq = q
  res : t.res = s.res
  inb : t.inb = inb
  dev : t.dev = d
  receiver : Receiver held t.per

theorem Reached.trans {q q' : Seq} {bytes bytes' : List Byte} {d d' : Device} {held held' : Option Byte} {s t u : State}
    (h : Reached q bytes d held s t) (g : Reached q' bytes' d' held' t u) : Reached q' bytes' d' held' s u := by
  obtain ⟨cs, hcs⟩ := h.runs
  obtain ⟨ds, hds⟩ := g.runs
  exact ⟨⟨_, hcs.trans hds⟩, g.seq, g.res.trans h.res, g.inb, g.dev, g.receiver⟩

/-- The send of a byte: the device takes its frame, and the reply waits in the receiver (R74, R162). -/
theorem OnReference.sends {i : Nat} {b r : Byte} {d : Device} {s : State} (h : OnReference s) (hseq : s.seq = .send i)
    (hout : s.out[i]? = some b) (hkeep : i < s.keep.length) (hrx : Receiver none s.per)
    (hframe : referenceFrame s.par.dummy b s.dev = .next (r, d)) :
    ∃ t, Reached (.recv i) s.inb d (some r) s t := by
  obtain ⟨u, hu⟩ := h.retries s.per.waitTx (.inl ⟨hseq, rfl⟩) (List.getElem?_eq_some_iff.1 hout).1 hkeep hrx
    hrx.readyAfter_send
  obtain ⟨cs, hruns⟩ := hu.runs
  have hon := hruns.onReference h
  rw [← hruns.par, ← hu.dev] at hframe
  obtain ⟨t, hattempt, hdev, hreceiver⟩ := attemptSend_of_reference hon.reference hu.receiver hu.ready hframe
  have hbus := attemptSend_busOnly hattempt
  obtain ⟨ds, hcalls⟩ := (attemptSend_attempted hattempt).appends
  have hstep : step u = .next (t.goto (.recv i)) :=
    hon.step_eq.trans (sequencerStep_of_attemptSend (hu.same.seq.trans hseq) (hu.same.out ▸ hout) hattempt)
  have hlast := RunsTo.of_step hstep hcalls (hbus.transactor.sendRow i (.ready ())) hbus.env hbus.host
  have hsame := hu.same.trans hbus.transactor
  exact ⟨_, ⟨_, hruns.trans hlast⟩, rfl, hsame.res, hsame.inb, hdev, hreceiver⟩

/-- The receive of a byte: it is taken from the receiver, and kept if its position is (R75, R76). -/
theorem OnReference.receives {i : Nat} {kept : Bool} {r : Byte} {s : State} (h : OnReference s) (hseq : s.seq = .recv i)
    (hout : i < s.out.length) (hkeep : s.keep[i]? = some kept) (hrx : Receiver (some r) s.per) :
    ∃ t, Reached (if i + 1 < s.n then .send (i + 1) else .close s.n) (if kept then s.inb ++ [r] else s.inb) s.dev none
      s t := by
  obtain ⟨u, hu⟩ := h.retries s.per.waitRx (.inr ⟨hseq, rfl⟩) hout (List.getElem?_eq_some_iff.1 hkeep).1 hrx
    hrx.readyAfter_receive
  obtain ⟨cs, hruns⟩ := hu.runs
  have hon := hruns.onReference h
  obtain ⟨t, hattempt, hdev, hreceiver⟩ := attemptReceive_of_reference hon.reference hu.receiver hu.ready
  have hbus := attemptReceive_busOnly hattempt
  obtain ⟨ds, hcalls⟩ := (attemptReceive_attempted hattempt).appends
  have hstep : step u = .next (collect kept r i t) :=
    hon.step_eq.trans (sequencerStep_of_attemptReceive (hu.same.seq.trans hseq) (hu.same.keep ▸ hkeep) hattempt)
  have hlast := RunsTo.of_step hstep hcalls (hbus.transactor.recvRow kept i (.ready r)) hbus.env hbus.host
  have hsame := hu.same.trans hbus.transactor
  exact ⟨_, ⟨_, hruns.trans hlast⟩, by rw [collect_seq, hsame.n], hsame.res, by rw [collect_inb, hsame.inb],
    hdev.trans hu.dev, hreceiver⟩

/-! ### The byte loop in the reference environment -/

/-- The byte loop sends its frames to the device and keeps its replies at the kept positions. -/
theorem OnReference.transfers (bs : List Byte) {ks : List Bool} {i : Nat} {rs : List Byte} {d : Device} {s : State}
    (h : OnReference s) (hat : AtByte i bs ks s) (hlen : ks.length = bs.length) (hrx : Receiver none s.per)
    (hframes : referenceFrames s.par.dummy bs s.dev = .next (rs, d)) :
    ∃ j t, Reached (.close j) (s.inb ++ keptBytes ks rs) d none s t := by
  induction bs generalizing ks i rs s with
  | nil =>
    cases hframes
    obtain rfl := List.length_eq_zero_iff.1 hlen
    obtain ⟨⟨j, hseq⟩, -⟩ := hat.closing_ok
    exact ⟨j, s, ⟨[], .refl s⟩, hseq, rfl, by simp [keptBytes], rfl, hrx⟩
  | cons b bs ih =>
    obtain ⟨k, ks, rfl⟩ := List.exists_cons_of_length_eq_add_one hlen
    obtain ⟨r, e, rs, hframe, hrest, rfl⟩ := referenceFrames_cons_eq_next.1 hframes
    obtain ⟨hbyte, hbytes⟩ := getElem?_of_drop_eq_cons hat.out
    obtain ⟨hmask, hmasks⟩ := getElem?_of_drop_eq_cons hat.keep
    have ⟨hout, _⟩ := List.getElem?_eq_some_iff.1 hbyte
    have ⟨hkeep, _⟩ := List.getElem?_eq_some_iff.1 hmask
    obtain ⟨u, hu⟩ := h.sends (by rw [hat.seq, if_pos (hat.n ▸ hout)]) hbyte hkeep hrx hframe
    obtain ⟨cs, hsent⟩ := hu.runs
    obtain ⟨w, hw⟩ := (hsent.onReference h).receives hu.seq (hsent.operands.out ▸ hout) (hsent.operands.keep ▸ hmask)
      hu.receiver
    have hsofar := hu.trans hw
    obtain ⟨ds, hruns⟩ := hsofar.runs
    have hops := hruns.operands
    have hnext : AtByte (i + 1) bs ks w :=
      ⟨by rw [hw.seq, hsent.operands.n, hops.n], by rw [hops.out, hbytes], by rw [hops.keep, hmasks],
        by rw [hops.n, hops.out, hat.n], hsofar.res.trans hat.res⟩
    rw [← hruns.par, ← hu.dev, ← hw.dev] at hrest
    obtain ⟨j, t, ht⟩ := ih (hruns.onReference h) hnext (Nat.succ.inj hlen) hw.receiver hrest
    have hkept : w.inb ++ keptBytes ks rs = s.inb ++ keptBytes (k :: ks) (r :: rs) := by
      rw [hw.inb, hu.inb, keptBytes_cons]
      cases k <;> simp
    exact ⟨j, t, hkept ▸ hsofar.trans ht⟩

/-! ### A whole transaction in the reference environment (R73, R77) -/

/-- Between two transactions of the ordinary context, in the reference environment with the interrupt source disabled, the
receiver empty and no overrun. -/
structure AtRest (s : State) : Prop where
  ready : readyToOpen s
  reference : s.env = .reference
  masked : s.host.irqOn = false
  ordinary : s.host.context = .ordinary
  free : s.host.ordinary.call = none
  receiver : Receiver none s.per

/-- A transaction is over, with no fault: its caller has the bytes `kept`, the device stands as its frames left it, and the
ordinary context has the requests `rest` to make. -/
structure Accessed (c : Caller) (kept : List Byte) (rest : List Request) (d : Device) (t : State) : Prop where
  rests : AtRest t
  idle : t.seq = .idle
  sel : t.sel = .deasserted
  result : t.host.ordinary.result = some (returnedResult c none kept)
  buffer : ∀ n, c = .read n → t.host.ordinary.buffer = kept
  todo : t.host.ordinary.todo = rest
  dev : t.dev = { d with phase := .idle }

theorem popped_ordinary {s : State} (h : s.host.context = .ordinary) (rest : List Request) :
    (s.popped rest).host.ordinary = { s.host.ordinary with todo := rest } := by
  have hthread := popped_thread s rest
  rw [h] at hthread
  exact hthread

/-- At rest the next step makes the ordinary context's next request. -/
theorem AtRest.step_eq_exec {i : Instr} {rest : List Request} {s : State} (h : AtRest s)
    (htodo : s.host.ordinary.todo = .op i :: rest) : step s = exec i (s.popped rest) := by
  have ⟨_, hbusy⟩ := h.ready
  rw [step_eq_makeRequest (by rw [h.ordinary]; exact h.free) (by rw [h.ordinary]; exact htodo)
    (by simp [waitsForBus, hbusy]) (interruptTaken_deviceMove_of_masked h.masked), deviceMove_of_reference h.reference]
  rfl

/-- The transaction that is opened belongs to the ordinary context, and the device awaits its command (R72, R163). -/
theorem AtRest.openedState_popped {s : State} (h : AtRest s) (c : Caller) (bytes : List Byte) (mask : List Bool)
    (rest : List Request) :
    OnReference (openedState c bytes mask (s.popped rest)) ∧
      (openedState c bytes mask (s.popped rest)).dev = { s.dev with phase := .awaitCmd } := by
  have hp := hostOnly_popped s rest
  have henv : (s.popped rest).env = .reference := hp.env.trans h.reference
  have ⟨hcfg, _⟩ := h.ready
  refine ⟨⟨henv, by simp [waitsForBus, openedState], by simp [openedState, h.masked],
    hp.transactor.selCfg.trans hcfg⟩, ?_⟩
  rw [← assertedPhase_of_reference henv, ← hp.dev]
  rfl

/-- The close of the ordinary context's transaction, no fault seen. -/
theorem OnReference.closes {j : Nat} {s : State} (h : OnReference s) (hseq : s.seq = .close j) (hres : s.res = none)
    (howner : s.owner = .ordinary) (hfree : s.host.ordinary.call = none) (hrx : Receiver none s.per) :
    ∃ t, step s = .next t ∧ Accessed s.caller s.inb s.host.ordinary.todo s.dev t := by
  obtain ⟨t, hstep, ht, -, -, hdev, hper, henv, -, -, hresult, hbuffer, -, htodo, hcall, -, hcontext, -, -, hirqOn, -⟩ :=
    closeStepDeassertsAndReturns s j h.waits (interruptTaken_deviceMove_of_masked h.masked) h.configured hseq
  have hordinary : s.host.context = .ordinary := by
    have hwaits := h.waits
    simp only [waitsForBus, Bool.and_eq_true, decide_eq_true_eq] at hwaits
    obtain ⟨-, hcontext⟩ := hwaits
    rw [← hcontext, howner]
  rw [howner] at hresult hbuffer htodo hcall
  rw [hres] at hresult
  refine ⟨t, hstep, ⟨⟨ht.selCfg.trans h.configured, ht.busy⟩, henv.trans h.reference, hirqOn.trans h.masked,
    hcontext.trans hordinary, hcall.trans hfree, hper ▸ hrx⟩, ht.seq, ht.sel, hresult.trans ?_,
    fun n hn => hbuffer n hn hres, htodo, ?_⟩
  · cases s.caller <;> rfl
  · rw [hdev, deviceMove_of_reference h.reference]

/-- A request that opens a transaction whose frames the device takes runs to the transaction's end. -/
theorem AtRest.accesses {i : Instr} {rest : List Request} {c : Caller} {bytes : List Byte} {mask : List Bool}
    {rs : List Byte} {d : Device} {s : State} (h : AtRest s) (htodo : s.host.ordinary.todo = .op i :: rest)
    (hopens : exec i (s.popped rest) = .next (openedState c bytes mask (s.popped rest)))
    (hmask : mask.length = bytes.length)
    (hframes : referenceFrames s.par.dummy bytes { s.dev with phase := .awaitCmd } = .next (rs, d)) :
    ∃ (k : Nat) (t : State), Sys2Proof.core.run k s = .next t ∧ Accessed c (keptBytes mask rs) rest d t := by
  have hp := hostOnly_popped s rest
  have hthread := popped_ordinary h.ordinary rest
  obtain ⟨hopen, hdev⟩ := h.openedState_popped c bytes mask rest
  rw [← hdev, ← hp.par] at hframes
  obtain ⟨j, t, ht⟩ := hopen.transfers bytes (openedState_atByte c bytes mask _) hmask (hp.per ▸ h.receiver) hframes
  obtain ⟨cs, hruns⟩ := ht.runs
  obtain ⟨k, hrun⟩ := hruns.run
  have hordinary : t.host.ordinary = { s.host.ordinary with todo := rest } := hruns.host ▸ hthread
  have howner : t.owner = .ordinary := hruns.operands.owner.trans ((popped_host_context s rest).trans h.ordinary)
  obtain ⟨u, hclose, hu⟩ := (hruns.onReference hopen).closes ht.seq ht.res howner (by rw [hordinary]; exact h.free)
    ht.receiver
  refine ⟨k + 1 + 1, u, ?run, ?accessed⟩
  case run =>
    calc Sys2Proof.core.run (k + 1 + 1) s
        = Sys2Proof.core.run (k + 1) (openedState c bytes mask (s.popped rest)) :=
          run_succ_of_step (M := Sys2Proof.core) (k + 1) ((h.step_eq_exec htodo).trans hopens)
      _ = Sys2Proof.core.run 1 t := run_add_of_run k 1 hrun
      _ = .next u := run_succ_of_step (M := Sys2Proof.core) 0 hclose
  case accessed =>
    have hcaller : t.caller = c := hruns.operands.caller
    have hinb : t.inb = keptBytes mask rs := ht.inb
    rwa [hcaller, hinb, hordinary, ht.dev] at hu

theorem HostOnly.readyToOpen {s t : State} (h : HostOnly s t) (hs : readyToOpen s) : readyToOpen t := by
  obtain ⟨hcfg, hbusy⟩ := hs
  exact ⟨h.transactor.selCfg.trans hcfg, h.transactor.busy.trans hbusy⟩

/-- An admitted access is within the address space, so its address goes into the command byte as it is (R51, R92). -/
theorem accessAdmitted_range {maxLen a n : Nat} (h : accessAdmitted maxLen a n) :
    (BitVec.ofNat 6 a).toNat = a ∧ a + n ≤ 64 := by
  obtain ⟨haddr, -, -, hlast⟩ := h
  exact ⟨Nat.mod_eq_of_lt (Nat.lt_succ_of_le haddr), by omega⟩

/-- A WRITE in the reference environment leaves the payload in its locations (R86). -/
theorem AtRest.writes {a : Nat} {p : List Byte} {rest : List Request} {s : State} (h : AtRest s)
    (htodo : s.host.ordinary.todo = .op (.write a p) :: rest) (hadm : accessAdmitted s.par.maxLen a p.length) :
    ∃ (k : Nat) (t : State) (kept : List Byte) (d : Device), Sys2Proof.core.run k s = .next t ∧
      Accessed .write kept rest d t ∧ regsRead d a p.length = p := by
  have hp := hostOnly_popped s rest
  obtain ⟨haddr, hroom⟩ := accessAdmitted_range hadm
  obtain ⟨rs, d, hframes, hread⟩ := referenceFrames_writeFrames s.par.dummy (a := BitVec.ofNat 6 a) s.dev
    (by rwa [haddr])
  rw [haddr] at hread
  obtain ⟨k, t, hrun, ht⟩ := h.accesses htodo (exec_write_answers (hp.readyToOpen h.ready) (hp.par ▸ hadm)) (by simp)
    hframes
  exact ⟨k, t, _, d, hrun, ht, hread⟩

/-- A READ in the reference environment returns what its locations hold, and changes none (R87). -/
theorem AtRest.reads {a n : Nat} {rest : List Request} {s : State} (h : AtRest s)
    (htodo : s.host.ordinary.todo = .op (.read a n) :: rest) (hadm : accessAdmitted s.par.maxLen a n) :
    ∃ (k : Nat) (t : State) (d : Device), Sys2Proof.core.run k s = .next t ∧
      Accessed (.read n) (regsRead s.dev a n) rest d t ∧ d.regs = s.dev.regs := by
  have hp := hostOnly_popped s rest
  obtain ⟨haddr, hroom⟩ := accessAdmitted_range hadm
  obtain ⟨d, hframes, hregs⟩ := referenceFrames_readFrames s.par.dummy (a := BitVec.ofNat 6 a) s.dev
    (by rwa [haddr])
  obtain ⟨k, t, hrun, ht⟩ := h.accesses htodo (exec_read_answers (hp.readyToOpen h.ready) (hp.par ▸ hadm)) (by simp)
    hframes
  have hkept := keptBytes_readKeep s.par.dummy (regsRead s.dev a n)
  rw [regsRead_length] at hkept
  rw [haddr, hkept] at ht
  exact ⟨k, t, d, hrun, ht, hregs⟩

/-! ### The buffer of a failed READ (R94; log 12) -/

@[simp] theorem unspecifiedBuffer_length (k n : Nat) : (unspecifiedBuffer k n).length = n := by simp [unspecifiedBuffer]

theorem unspecifiedBuffer_getElem? (k : Nat) {n j : Nat} (h : j < n) :
    (unspecifiedBuffer k n)[j]? = some (Config.drawSlot (k + j)) := by
  simp [unspecifiedBuffer, h]

theorem returnResult_of_failed_read {s : State} {n : Nat} {k : FaultKind} (hcaller : s.caller = .read n)
    (hres : s.res = some k) : ((returnResult s).thread s.owner).buffer = unspecifiedBuffer s.draws n := by
  simp [returnResult, hcaller, hres]

/-- The step at the close, with the device's move before it (R77). -/
theorem step_of_close {s : State} {i : Nat} (hbus : waitsForBus s = true)
    (hirq : interruptTaken (deviceMove s) = false) (hcfg : s.selCfg = true) (hseq : s.seq = .close i) :
    step s = .next (returnResult (driveDeasserted (deviceMove s)).release) := by
  have hm := (deviceMove_moved s).transactor
  rw [step_eq_sequencerStep hbus hirq]
  simp only [sequencerStep, hm.seq.trans hseq]
  exact closeTransaction_of_configured (hm.selCfg.trans hcfg)

/-! ### The obligations -/

/-- Settles O28: each wire form was shown to be the WRITE or READ of its operands. -/
theorem registerAccessIsItsWireForm : Obligations.RegisterAccessIsItsWireForm :=
  fun s a => ⟨fun p => (exec_wr1_eq_write s a p).symm, fun _ hlen => (exec_wrm_eq_write s a hlen).symm,
    (exec_rd1_eq_read s a).symm, fun _ hn => (exec_rdm_eq_read s a hn).symm⟩

/-- Settles O30: the WRITE runs to its end and leaves the payload in the device, where the READ after it finds it. -/
theorem writeThenReadRoundTrip : Obligations.WriteThenReadRoundTrip := by
  intro s a p hready henv hempty hovr hmasked hordinary hfree htodo hadm
  have hrest : AtRest s := ⟨hready, henv, hmasked, hordinary, hfree, hempty, hovr, fun _ heq => by cases heq⟩
  obtain ⟨k₁, t, kept, d, hwrite, ht, hpayload⟩ := hrest.writes htodo hadm
  have htodo' : t.host.ordinary.todo = [.op (.read a p.length)] := ht.todo
  obtain ⟨k₂, u, e, hread, hu, hregs⟩ := ht.rests.reads htodo' (run_par hwrite ▸ hadm)
  have hheld : regsRead t.dev a p.length = p := by
    rw [ht.dev, ← hpayload, regsRead_length]
    exact regsRead_congr rfl a p.length
  rw [hheld] at hu
  have ⟨_, hidle⟩ := ht.rests.ready
  have ⟨_, hended⟩ := hu.rests.ready
  refine ⟨k₁, t, k₂, u, hwrite, ht.result, hidle, htodo', hread, hu.result, hu.buffer _ rfl,
    ⟨hu.todo, hu.rests.free, hu.rests.ordinary, hended, hu.idle, hu.sel⟩, ?_⟩
  have hunchanged : u.dev.regs = t.dev.regs := (congrArg Device.regs hu.dev).trans hregs
  rw [regsRead_congr hunchanged, hheld]

/-- Settles O2: the fields are disjoint, so the byte is the sum of their place values. -/
theorem commandEncoderAddsItsFields : Obligations.CommandEncoderAddsItsFields :=
  encodeCmd_toNat

/-- Settles O29: the close returns the fault, and with it the free slots of `unspecifiedBuffer`. -/
theorem failedReadLeavesFreeSlots : Obligations.FailedReadLeavesFreeSlots := by
  intro s i n k hbus hirq hcfg hseq hcaller hres
  have hm := (deviceMove_moved s).transactor
  obtain ⟨t, hstep, -, -, -, -, -, -, -, -, hresult, -⟩ := closeStepDeassertsAndReturns s i hbus hirq hcfg hseq
  have hclosed := hstep.symm.trans (step_of_close hbus hirq hcfg hseq)
  cases hclosed
  have hbuffer := returnResult_of_failed_read (s := (driveDeasserted (deviceMove s)).release)
    (hm.caller.trans hcaller) (hm.res.trans hres)
  rw [release_owner, driveDeasserted_owner, hm.owner] at hbuffer
  rw [hcaller, hres] at hresult
  exact ⟨_, hstep, hresult, by rw [hbuffer]; exact unspecifiedBuffer_length _ n,
    fun j hj => by rw [hbuffer]; exact unspecifiedBuffer_getElem? _ hj⟩

end Sys2Proof.Machine

/-! ## The controller's calls: the initialisation and its order, the two reads and what they decode -/

namespace Sys2Proof.Machine

/-! ### The step of a call (R108 to R116) -/

/-- A step that neither takes an interrupt nor waits for the bus goes on with the running context's call. -/
theorem step_eq_continueCall {s : State} {st : CallStage} (hbus : waitsForBus s = false)
    (hirq : interruptTaken (deviceMove s) = false) (hcall : (s.thread s.host.context).call = some st) :
    step s = continueCall st (deviceMove s) := by
  have hmoved : (deviceMove s).thread (deviceMove s).host.context = s.thread s.host.context := by
    rw [deviceMove_thread, (deviceMove_host s).1]
  simp [step, agentStep, hostStep, hmoved, hcall, hbus, hirq]

theorem deviceMove_result (s : State) :
    ((deviceMove s).thread (deviceMove s).host.context).result = (s.thread s.host.context).result := by
  rw [deviceMove_thread, (deviceMove_host s).1]

theorem deviceMove_readyToOpen {s : State} (h : readyToOpen s) : readyToOpen (deviceMove s) := by
  obtain ⟨hcfg, hbusy⟩ := h
  have hm := (deviceMove_moved s).transactor
  exact ⟨hm.selCfg.trans hcfg, hm.busy.trans hbusy⟩

/-! ### The end of a call -/

/-- A call of the running context has ended with its result, and nothing happened on the bus. -/
structure CallEnded (r : Result) (s t : State) : Prop where
  transactor : SameTransactor s t
  calls : t.calls = s.calls
  call : (t.thread s.host.context).call = none
  result : (t.thread s.host.context).result = some r

/-- The device's own move, before the call ends, touches nothing of this. -/
theorem CallEnded.of_deviceMove {r : Result} {s t : State} (h : CallEnded r (deviceMove s) t) : CallEnded r s t := by
  have hm := deviceMove_moved s
  obtain ⟨htransactor, hcalls, hcall, hresult⟩ := h
  rw [(deviceMove_host s).1] at hcall hresult
  exact ⟨hm.transactor.trans htransactor, hcalls.trans hm.calls, hcall, hresult⟩

theorem callEnded_finishCall (r : Result) (s : State) : CallEnded r s (finishCall r s) :=
  have h := hostOnly_finishCall r s
  ⟨h.transactor, h.calls, by simp [finishCall], by simp [finishCall]⟩

theorem callEnded_finishInit (r : InitResult) (s : State) : CallEnded (.init r) s (finishInit r s) :=
  have h := hostOnly_finishInit r s
  have hend := callEnded_finishCall (.init r) _
  ⟨h.transactor, h.calls, hend.call, hend.result⟩

theorem finishCall_ctl (r : Result) (s : State) : (finishCall r s).host.ctl = s.host.ctl := by simp [finishCall]

/-- The initialisation leaves the controller Ready on success, and Uninitialized on any failure (R108, R114, R120). -/
theorem finishInit_ctl (r : InitResult) (s : State) :
    (finishInit r s).host.ctl = if r = .ok then .ready else .uninitialized := by
  unfold finishInit
  rw [finishCall_ctl]
  cases r <;> rfl

/-! ### The transaction of a stage (R110 to R116) -/

/-- The stages whose transaction is a READ; that of the others is a WRITE. -/
def stageReads : CallStage → Bool
  | .initIdentity _ | .status | .measurement _ => true
  | .initStart _ | .initInterrupt _ | .initRange _ | .initPrimary _ => false

/-- The operation that waits for a stage's transaction. -/
def stageCaller (p : Params) (st : CallStage) : Caller :=
  if stageReads st then .read (stageAccess p st).2 else .write

/-- The keep mask of a stage's transaction (R86, R87). -/
def stageKeep (p : Params) (st : CallStage) : List Bool :=
  if stageReads st then readKeep (stageAccess p st).2 else writeKeep (stageAccess p st).2

/-- A stage entered: its transaction is requested, and the call waits for it. -/
def openStage (st : CallStage) (s : State) : Out State :=
  andThen (openAccess (stageCaller s.par st) (stageAccess s.par st).1 (stageAccess s.par st).2 (stageFrames s.par st)
    (stageKeep s.par st) s) fun u => .next (u.setCall (some st))

/-- The state a stage's transaction opens in. -/
def stageOpened (st : CallStage) (s : State) : State :=
  (openedState (stageCaller s.par st) (stageFrames s.par st) (stageKeep s.par st) s).setCall (some st)

theorem openStage_next {st : CallStage} {s t : State} (h : openStage st s = .next t) : t = stageOpened st s := by
  obtain ⟨u, hopen, hset⟩ := andThen_eq_next.1 h
  obtain ⟨-, hopen⟩ := openAccess_next hopen
  obtain ⟨-, -, -, rfl⟩ := openTransaction_next hopen
  cases hset
  rfl

/-- A stage past the first has one frame more than its access has bytes. -/
theorem stageFrames_length (p : Params) {st : CallStage} (h : ∀ cfg, st ≠ .initStart cfg) :
    (stageFrames p st).length = (stageAccess p st).2 + 1 := by
  cases st with
  | initStart cfg => exact absurd rfl (h cfg)
  | initIdentity | status | measurement => exact readFrames_length _ _
  | initInterrupt | initRange | initPrimary => exact writeFrames_length _ _

theorem stageKeep_length (p : Params) (st : CallStage) : (stageKeep p st).length = (stageAccess p st).2 + 1 := by
  unfold stageKeep
  split
  · exact readKeep_length _
  · exact writeKeep_length _

theorem openStage_answers {st : CallStage} {s : State} (hst : ∀ cfg, st ≠ .initStart cfg) (hready : readyToOpen s)
    (hadm : accessAdmitted s.par.maxLen (stageAccess s.par st).1 (stageAccess s.par st).2) :
    openStage st s = .next (stageOpened st s) := by
  have ⟨_, _, hmax, _⟩ := hadm
  have hframes := stageFrames_length s.par hst
  have hopen := openAccess_answers (c := stageCaller s.par st) (bytes := stageFrames s.par st) (mask := stageKeep s.par st)
    hready hadm (by rw [stageKeep_length, hframes]) (by rw [hframes]; exact Nat.succ_le_succ hmax)
  simp only [openStage, hopen, andThen_next_left, stageOpened]

theorem writePayload_eq (a : RegAddr) (p : Byte × List Byte) (st : CallStage) (s : State) :
    writePayload a p st s =
      andThen (openAccess .write a.toNat (p.2.length + 1) (writeFrames a (p.1 :: p.2)) (writeKeep (p.2.length + 1)) s)
        fun u => .next (u.setCall (some st)) := by
  simp [writePayload, execWrite]

theorem readRegister_eq (a : RegAddr) (n : Nat) (st : CallStage) (s : State) :
    readRegister a n st s =
      andThen (openAccess (.read n) a.toNat n (readFrames a n) (readKeep n) s) fun u => .next (u.setCall (some st)) := by
  simp [readRegister, execRead]

theorem issueInterrupt_eq (cfg : DeviceConfig) (s : State) : issueInterrupt cfg s = openStage (.initInterrupt cfg) s :=
  writePayload_eq _ _ _ _

theorem issueRange_eq (cfg : DeviceConfig) (s : State) : issueRange cfg s = openStage (.initRange cfg) s :=
  writePayload_eq _ _ _ _

theorem issuePrimary_eq (cfg : DeviceConfig) (s : State) : issuePrimary cfg s = openStage (.initPrimary cfg) s :=
  writePayload_eq _ _ _ _

theorem readIdentity_eq (cfg : DeviceConfig) (s : State) :
    readRegister s.par.aIdentity 1 (.initIdentity cfg) s = openStage (.initIdentity cfg) s :=
  readRegister_eq _ _ _ _

/-! ### The reads of the controller opened (R115, R116) -/

/-- A read of the controller, in Ready on a block that can open its transaction, opens the READ that `readOpensItsTransaction`
says of its address and count (R87, R115, R116). -/
theorem step_of_read {s : State} {c : HostCall} {a : RegAddr} {n : Nat} {st : CallStage} {rest : List Request}
    (hbus : waitsForBus s = false) (hirq : interruptTaken (deviceMove s) = false)
    (hcall : (s.thread s.host.context).call = none) (htodo : (s.thread s.host.context).todo = .call c :: rest)
    (hstart : startCall c ((deviceMove s).popped rest) = readRegister a n st ((deviceMove s).popped rest))
    (hready : readyToOpen s) (hadm : accessAdmitted s.par.maxLen a.toNat n) :
    step s = .next ((openedState (.read n)
      (BitVec.ofNat 8 ((if 1 < n then 0xC0 else 0x80) + a.toNat) :: List.replicate n 0x00)
      (false :: List.replicate n true) ((deviceMove s).popped rest)).setCall (some st)) := by
  have hp := hostOnly_popped (deviceMove s) rest
  have hpar : ((deviceMove s).popped rest).par = s.par := hp.par.trans (deviceMove_moved s).par
  have hopen := readOpensItsTransaction _ a.toNat n (hp.readyToOpen (deviceMove_readyToOpen hready)) (hpar ▸ hadm)
  calc step s
      = readRegister a n st ((deviceMove s).popped rest) := (step_eq_makeRequest hcall htodo hbus hirq).trans hstart
    _ = andThen (exec (.read a.toNat n) ((deviceMove s).popped rest)) fun t => .next (t.setCall (some st)) := rfl
    _ = _ := by rw [hopen, andThen_next_left]

/-! ### The initialisation, stage by stage (R109 to R114) -/

/-- What the initialisation does after a stage: it enters the next one, or ends. -/
def followSuccessor (next : Option (CallStage ⊕ InitResult)) (s : State) : Out State :=
  match next with
  | some (.inl st) => openStage st s
  | some (.inr r) => .next (finishInit r s)
  | none => .fault .sequencerOutOfStep

/-- What step 1 makes of the transactor: the line configured and deasserted, the rest as it was (R109). -/
theorem SameTransactor.configured {s t : State} (h : SameTransactor s t) :
    SameTransactor { s with selCfg := true, sel := .deasserted } (configureSelect t) :=
  ⟨rfl, rfl, h.busy, h.seq, h.res, h.n, h.out, h.keep, h.inb, h.caller, h.owner⟩

theorem initSuccessor_of_read_fault (p : Params) {st : CallStage} (k : FaultKind) (h : initRank st = 1) :
    initSuccessor p st (some (.read (.err k))) = some (.inr (.fault k)) := by
  cases st with
  | initIdentity => rfl
  | initStart | initInterrupt | initRange | initPrimary | status | measurement => simp [initRank] at h

theorem initSuccessor_of_write_fault (p : Params) {st : CallStage} (k : FaultKind) (h : 2 ≤ initRank st) :
    initSuccessor p st (some (.write (.err k))) = some (.inr (.fault k)) := by
  cases st with
  | initInterrupt | initRange | initPrimary => rfl
  | initStart | initIdentity | status | measurement => simp [initRank] at h

theorem initSuccessor_of_identity (p : Params) (cfg : DeviceConfig) (id : Byte) :
    initSuccessor p (.initIdentity cfg) (some (.read (.ok [id]))) =
      some (if id = p.deviceId then .inl (if cfg.interruptEnabled then .initInterrupt cfg else .initRange cfg)
        else .inr .identityMismatch) := rfl

/-- The initialisation succeeds after one stage and one answer only (R108, R113). -/
theorem initSuccessor_eq_ok {p : Params} {st : CallStage} {r : Option Result}
    (h : initSuccessor p st r = some (.inr .ok)) : (∃ cfg, st = .initPrimary cfg) ∧ r = some (.write (.ok ())) := by
  unfold initSuccessor at h
  split at h
  -- the one clause that ends with success; that of the identity read chooses by the byte
  case h_9 cfg _ => exact ⟨⟨cfg, rfl⟩, rfl⟩
  case h_3 => split_ifs at h <;> simp at h
  all_goals simp at h

/-- A stage that follows another is one of the same configuration, and not the first. -/
theorem initSuccessor_eq_stage {p : Params} {st st' : CallStage} {r : Option Result}
    (h : initSuccessor p st r = some (.inl st')) :
    initConfig st' = initConfig st ∧ ∀ cfg, st' ≠ .initStart cfg := by
  unfold initSuccessor at h
  split at h
  case h_3 => split_ifs at h <;> cases h <;> simp [initConfig]
  all_goals cases h <;> simp [initConfig]

/-- The identity read judged (R110). -/
theorem afterIdentity_eq (cfg : DeviceConfig) (r : Option Result) (s : State) :
    afterIdentity cfg r s = followSuccessor (initSuccessor s.par (.initIdentity cfg) r) s := by
  unfold afterIdentity
  split
  · rfl
  · rename_i id
    rw [initSuccessor_of_identity]
    split
    · rw [issueInterrupt_eq, issueRange_eq]
      cases cfg.interruptEnabled <;> rfl
    · rfl
  · rename_i hfault hok
    have hnone : initSuccessor s.par (.initIdentity cfg) r = none := by
      unfold initSuccessor
      split <;> simp_all
    rw [hnone]
    rfl

/-- A configuration write judged (R111 to R114): `go` is what follows it when it returned Ok. -/
theorem afterWrite_eq {st : CallStage} {go : State → Out State} {next : CallStage ⊕ InitResult} {s : State}
    (hst : 2 ≤ initRank st) (hok : initSuccessor s.par st (some (.write (.ok ()))) = some next)
    (hgo : go s = followSuccessor (some next) s) (r : Option Result) :
    afterWrite go r s = followSuccessor (initSuccessor s.par st r) s := by
  unfold afterWrite
  split
  · rw [initSuccessor_of_write_fault s.par _ hst]
    rfl
  · rw [hok, hgo]
  · rename_i hfault hdone
    have hnone : initSuccessor s.par st r = none := by
      unfold initSuccessor
      split <;> simp_all [initRank]
    rw [hnone]
    rfl

/-- A stage of the initialisation goes on as the table of its successors says (R109 to R114). -/
theorem continueCall_of_init {st : CallStage} {cfg : DeviceConfig} (hst : initConfig st = some cfg) (s : State) :
    continueCall st s = followSuccessor (initSuccessor s.par st (s.thread s.host.context).result) s := by
  cases st with
  | initStart c => exact readIdentity_eq c s
  | initIdentity c => exact afterIdentity_eq c _ s
  | initInterrupt c => exact afterWrite_eq (st := .initInterrupt c) (le_refl 2) rfl (issueRange_eq c s) _
  | initRange c => exact afterWrite_eq (st := .initRange c) (Nat.le_succ 2) rfl (issuePrimary_eq c s) _
  | initPrimary c => exact afterWrite_eq (st := .initPrimary c) (Nat.le_add_right 2 2) rfl rfl _
  | status | measurement => cases hst

theorem step_of_init {s : State} {st : CallStage} {cfg : DeviceConfig} (hbus : waitsForBus s = false)
    (hirq : interruptTaken (deviceMove s) = false) (hcall : (s.thread s.host.context).call = some st)
    (hst : initConfig st = some cfg) :
    step s = followSuccessor (initSuccessor s.par st (s.thread s.host.context).result) (deviceMove s) := by
  rw [step_eq_continueCall hbus hirq hcall, continueCall_of_init hst, deviceMove_result, (deviceMove_moved s).par]

/-- What a step does when the initialisation ends after the running stage. -/
theorem step_of_initEnd {s : State} {st : CallStage} {cfg : DeviceConfig} {r : InitResult} (hbus : waitsForBus s = false)
    (hirq : interruptTaken (deviceMove s) = false) (hcall : (s.thread s.host.context).call = some st)
    (hst : initConfig st = some cfg)
    (hend : initSuccessor s.par st (s.thread s.host.context).result = some (.inr r)) :
    ∃ t, step s = .next t ∧ CallEnded (.init r) s t ∧ t.host.ctl = if r = .ok then .ready else .uninitialized :=
  ⟨_, by rw [step_of_init hbus hirq hcall hst, hend]; rfl, (callEnded_finishInit r _).of_deviceMove, finishInit_ctl r _⟩

/-- A stage whose transaction the step has opened (R73, R110 to R113). -/
structure StageEntered (st : CallStage) (s t : State) : Prop where
  call : (t.thread s.host.context).call = some st
  busy : t.busy = true
  seq : t.seq = .send 0
  out : t.out = stageFrames s.par st
  calls : t.calls = s.calls ++ [.selectAssert]
  ctl : t.host.ctl = s.host.ctl

theorem stageOpened_entered {st : CallStage} (hst : ∀ cfg, st ≠ .initStart cfg) (s : State) :
    StageEntered st s (stageOpened st (deviceMove s)) := by
  have hm := deviceMove_moved s
  obtain ⟨hcontext, -, -, -, hctl, -⟩ := deviceMove_host s
  have hcall : ((stageOpened st (deviceMove s)).thread (deviceMove s).host.context).call = some st :=
    congrArg Thread.call (setCall_thread (openedState _ _ _ (deviceMove s)) (some st))
  have hframes : stageFrames s.par st ≠ [] := List.ne_nil_of_length_eq_add_one (stageFrames_length s.par hst)
  rw [hcontext] at hcall
  exact ⟨hcall, by simp [stageOpened, openedState], by simp [stageOpened, openedState, hm.par, hframes],
    by simp [stageOpened, openedState, hm.par], by simp [stageOpened, openedState, hm.calls],
    by simp [stageOpened, openedState, hctl]⟩

/-! ### What makes a controller Ready (R108) -/

theorem sequencerStep_ctl {s t : State} (h : sequencerStep s = .next t) : t.host.ctl = s.host.ctl := by
  rcases sequencerStep_next h with ⟨i, b, o, u, -, -, hsend, hrow⟩ | ⟨i, kept, o, u, -, -, hrecv, hrow⟩ | ⟨i, -, hclose⟩
  · rw [← (attemptSend_busOnly hsend).host]
    rcases hrow with ⟨-, rfl⟩ | ⟨-, rfl⟩ | ⟨k, -, rfl⟩ <;> rfl
  · rw [← (attemptReceive_busOnly hrecv).host]
    rcases hrow with ⟨-, rfl⟩ | ⟨v, -, rfl⟩ | ⟨k, -, rfl⟩ <;> rfl
  · obtain ⟨-, rfl⟩ := closeTransaction_next hclose
    exact (returnResult_returned _).ctl

theorem exec_ctl {i : Instr} {s t : State} (h : exec i s = .next t) : t.host.ctl = s.host.ctl := by
  rcases exec_next h with ⟨c, bytes, mask, hopen⟩ | ⟨-, -, rfl⟩ | ⟨-, -, rfl⟩ | ⟨b, o, u, -, -, hsend, rfl⟩ |
    ⟨o, u, -, -, hrecv, rfl⟩
  · rw [hopen.host]
  · rfl
  · rfl
  · rw [deliver_host_ctl, (attemptSend_busOnly hsend).host]
  · rw [deliver_host_ctl, (attemptReceive_busOnly hrecv).host]

theorem makeRequest_ctl {r : Request} {s t : State} (h : makeRequest r s = .next t) : t.host.ctl = s.host.ctl := by
  cases r with
  | frames bytes =>
    simp only [makeRequest, runFrames] at h
    split at h
    · exact exec_ctl h
    · cases h
  | op i => exact exec_ctl h
  | call c =>
    rcases startCall_next h with ⟨cfg, -, -, rfl⟩ | ⟨c', mask, st, u, -, hopen, rfl⟩
    · rw [setCall_host_ctl]; rfl
    · rw [setCall_host_ctl, hopen.host]
  | setInterrupt on => cases h; rfl

/-- The calls that only read end with a result, and leave the controller as it was (R115, R116, R131). -/
theorem continueCall_of_read {st : CallStage} {s t : State} (hst : initConfig st = none) (h : continueCall st s = .next t) :
    ∃ r, t = finishCall r s := by
  cases st with
  | status =>
    simp only [continueCall, afterStatus] at h
    split at h <;> cases h <;> exact ⟨_, rfl⟩
  | measurement sc =>
    simp only [continueCall, afterMeasurement] at h
    split at h <;> cases h <;> exact ⟨_, rfl⟩
  | initStart | initIdentity | initInterrupt | initRange | initPrimary => cases hst

/-- Of the initialisation's stages, the one that ends it with success makes the controller Ready; no other does (R108). -/
theorem continueCall_ready {st : CallStage} {s t : State} (h : continueCall st s = .next t)
    (huninit : s.host.ctl = .uninitialized) (hready : t.host.ctl = .ready) :
    (∃ cfg, st = .initPrimary cfg) ∧ (s.thread s.host.context).result = some (.write (.ok ())) := by
  have hsame (heq : t.host.ctl = s.host.ctl) : False := by simp [hready, huninit] at heq
  cases hst : initConfig st with
  | none =>
    obtain ⟨r, rfl⟩ := continueCall_of_read hst h
    exact (hsame (finishCall_ctl r s)).elim
  | some cfg =>
    rw [continueCall_of_init hst] at h
    cases hnext : initSuccessor s.par st (s.thread s.host.context).result with
    | none => rw [hnext] at h; cases h
    | some next =>
      rw [hnext] at h
      cases next with
      | inl st' =>
        rw [openStage_next h] at hsame
        exact (hsame (by simp [stageOpened, openedState])).elim
      | inr r =>
        cases h
        rw [finishInit_ctl] at hready
        split at hready
        · next hr => exact initSuccessor_eq_ok (hr ▸ hnext)
        · cases hready

theorem hostStep_ready {s t : State} (h : hostStep s = .next t) (huninit : s.host.ctl = .uninitialized)
    (hready : t.host.ctl = .ready) :
    ∃ cfg, (s.thread s.host.context).call = some (.initPrimary cfg) ∧
      (s.thread s.host.context).result = some (.write (.ok ())) := by
  have hsame (heq : t.host.ctl = s.host.ctl) : False := by simp [hready, huninit] at heq
  unfold hostStep at h
  split at h
  · next st hcall =>
    obtain ⟨⟨cfg, rfl⟩, hresult⟩ := continueCall_ready h huninit hready
    exact ⟨cfg, hcall, hresult⟩
  · split at h
    · unfold outOfRequests at h
      split at h <;> cases h <;> exact (hsame rfl).elim
    · exact (hsame ((makeRequest_ctl h).trans (popped_host_ctl _ _))).elim

/-! ### The obligations -/

/-- Settles O53: the step enters the stage that follows, or ends the call with its result. -/
theorem initializeStagesAdvance : Obligations.InitializeStagesAdvance := by
  intro s st cfg hbus hirq hcall hst
  have hstep := step_of_init hbus hirq hcall hst
  have hm := deviceMove_moved s
  refine ⟨fun t h => ?next, fun st' hnext hready hadm => ?answers, fun r hnext => ?ends⟩
  case next =>
    rw [hstep] at h
    cases hnext : initSuccessor s.par st (s.thread s.host.context).result with
    | none => rw [hnext] at h; cases h
    | some next =>
      rw [hnext] at h
      cases next with
      | inl st' =>
        obtain ⟨hconfig, hlater⟩ := initSuccessor_eq_stage hnext
        have ht := stageOpened_entered hlater s
        rw [← openStage_next h] at ht
        exact ⟨ht.call, hconfig.trans hst, ht.busy, ht.seq, ht.out, ht.calls, ht.ctl⟩
      | inr r =>
        cases h
        have ht := (callEnded_finishInit r (deviceMove s)).of_deviceMove
        exact ⟨ht.call, ht.result, ht.transactor, ht.calls, finishInit_ctl r _⟩
  case answers =>
    obtain ⟨-, hlater⟩ := initSuccessor_eq_stage hnext
    rw [hstep, hnext]
    exact ⟨_, openStage_answers hlater (deviceMove_readyToOpen hready) (hm.par ▸ hadm)⟩
  case ends => exact ⟨_, by rw [hstep, hnext]; rfl⟩

/-- Settles O54: after a fault the table of successors has the end with that fault, at each stage that has a transaction. -/
theorem initializeFaultAborts : Obligations.InitializeFaultAborts := by
  intro s st cfg k hbus hirq hcall hst hfault
  have hend : initSuccessor s.par st (s.thread s.host.context).result = some (.inr (.fault k)) := by
    rcases hfault with ⟨hrank, hresult⟩ | ⟨hrank, hresult⟩ <;> rw [hresult]
    · exact initSuccessor_of_read_fault _ k hrank
    · exact initSuccessor_of_write_fault _ k hrank
  obtain ⟨t, hstep, ht, hctl⟩ := step_of_initEnd hbus hirq hcall hst hend
  exact ⟨t, hstep, ht.transactor, ht.calls, hctl, ht.call, ht.result⟩

/-- Settles O55: only a call that goes on touches the controller's state, and of its ends only the last write's Ok is a success. -/
theorem initializeEndsReady : Obligations.InitializeEndsReady := by
  refine ⟨fun s t h huninit hready => ?only, fun s cfg hbus hirq hcall hresult => ?ends⟩
  case only =>
    obtain ⟨hcontext, -, -, -, hctl, -⟩ := deviceMove_host s
    have huninit' : (deviceMove s).host.ctl = .uninitialized := hctl.trans huninit
    rcases step_next h with ⟨-, rfl⟩ | ⟨-, -, hseq⟩ | ⟨hirq, hbus, hhost⟩
    · cases huninit'.symm.trans hready
    · cases (huninit'.symm.trans (sequencerStep_ctl hseq).symm).trans hready
    · obtain ⟨cfg, hcall, hresult⟩ := hostStep_ready hhost huninit' hready
      rw [deviceMove_result] at hresult
      rw [deviceMove_thread, hcontext] at hcall
      exact ⟨(deviceMove_waitsForBus s).symm.trans hbus, hirq, cfg, hcall, hresult⟩
  case ends =>
    obtain ⟨t, hstep, ht, hctl⟩ := step_of_initEnd (r := .ok) hbus hirq hcall rfl (by rw [hresult]; rfl)
    exact ⟨t, hstep, ht.transactor, hctl, ht.call, ht.result⟩

/-- Settles O52: the byte judged, the table of successors has the end with IdentityMismatch. -/
theorem identityMismatchWritesNothing : Obligations.IdentityMismatchWritesNothing := by
  intro s cfg id hbus hirq hcall hresult hid
  have hend : initSuccessor s.par (.initIdentity cfg) (s.thread s.host.context).result =
      some (.inr .identityMismatch) := by
    rw [hresult, initSuccessor_of_identity, if_neg hid]
  obtain ⟨t, hstep, ht, hctl⟩ := step_of_initEnd hbus hirq hcall rfl hend
  exact ⟨t, hstep, ht.transactor, ht.calls, hctl, ht.call, ht.result⟩

/-- Settles O51: step 1 of the initialisation is the device's own move and then the line configured and deasserted. -/
theorem initializeConfiguresTheLine : Obligations.InitializeConfiguresTheLine := by
  intro s cfg rest hcall htodo hirq
  have hm := deviceMove_moved s
  have hp := hostOnly_popped (deviceMove s) rest
  have hbusy : ((deviceMove s).popped rest).busy = s.busy := hp.transactor.busy.trans hm.transactor.busy
  obtain ⟨hcontext, -, -, -, hctl, -⟩ := deviceMove_host s
  refine ⟨fun hb hbus => ?busy, fun hb => ?idle⟩
  case busy =>
    rw [step_eq_makeRequest hcall htodo hbus hirq]
    exact if_pos (hbusy.trans hb)
  case idle =>
    have hbus : waitsForBus s = false := by simp [waitsForBus, hb]
    have hstep : step s = .next ((configureSelect ((deviceMove s).popped rest)).setCall (some (.initStart cfg))) := by
      rw [step_eq_makeRequest hcall htodo hbus hirq]
      exact if_neg (by rw [hbusy, hb]; exact Bool.false_ne_true)
    have hc := hostOnly_setCall (configureSelect ((deviceMove s).popped rest)) (some (.initStart cfg))
    have hthread := setCall_thread (configureSelect ((deviceMove s).popped rest)) (some (.initStart cfg))
    rw [configureSelect_host, popped_host_context, hcontext] at hthread
    have hdev : (configureSelect ((deviceMove s).popped rest)).dev = { (deviceMove s).dev with phase := .idle } := by
      simp
    refine ⟨_, hstep, (hm.transactor.trans hp.transactor).configured.trans hc.transactor, ?_, by rw [hthread], ?_,
      fun a _ => ?_, hc.dev.trans hdev, hc.per.trans (hp.per.trans hm.per)⟩
    · rw [hc.calls, configureSelect_calls, hp.calls, hm.calls]
    · rw [setCall_host_ctl, configureSelect_host, popped_host_ctl, hctl]
    · rw [hc.dev, hdev]
      exact deviceMove_regRead s a

/-- Settles O56: before Ready both reads are refused, in Ready each opens its READ. -/
theorem readsNeedAReadyController : Obligations.ReadsNeedAReadyController := by
  intro s rest hbus hirq hcall
  have hpar : ((deviceMove s).popped rest).par = s.par := (popped_par _ _).trans (deviceMove_moved s).par
  obtain ⟨-, -, -, -, hmoved, -⟩ := deviceMove_host s
  have hctl : ((deviceMove s).popped rest).host.ctl = s.host.ctl := (popped_host_ctl _ _).trans hmoved
  refine ⟨fun c htodo hread huninit => ?refused, fun htodo hready hopen hadm => ?status,
    fun sc htodo hready hopen hadm => ?measurement⟩
  case refused =>
    have hnot : ((deviceMove s).popped rest).host.ctl ≠ .ready := by rw [hctl, huninit]; decide
    rw [step_eq_makeRequest hcall htodo hbus hirq]
    rcases hread with rfl | ⟨sc, rfl⟩ <;> exact if_neg hnot
  case status =>
    exact step_of_read hbus hirq hcall htodo ((if_pos (hctl.trans hready)).trans (by rw [hpar])) hopen hadm
  case measurement =>
    exact step_of_read hbus hirq hcall htodo ((if_pos (hctl.trans hready)).trans (by rw [hpar])) hopen hadm

/-- Settles O57: every answer of a read ends its call with what it decodes to, or with its fault. -/
theorem controllerReadsDecode : Obligations.ControllerReadsDecode := by
  intro s st r expected hbus hirq hcall hresult hcases
  have hend : continueCall st (deviceMove s) = .next (finishCall expected (deviceMove s)) := by
    have hmoved : ((deviceMove s).thread (deviceMove s).host.context).result = some r :=
      (deviceMove_result s).trans hresult
    rcases hcases with ⟨b, rfl, rfl, rfl⟩ | ⟨k, rfl, rfl, rfl⟩ | ⟨sc, x0, x1, y0, y1, z0, z1, rfl, rfl, rfl⟩ |
      ⟨sc, k, rfl, rfl, rfl⟩ <;> simp only [continueCall, hmoved] <;> rfl
  have ht := (callEnded_finishCall expected (deviceMove s)).of_deviceMove
  obtain ⟨-, -, -, -, hctl, -⟩ := deviceMove_host s
  exact ⟨_, (step_eq_continueCall hbus hirq hcall).trans hend, ht.transactor, (finishCall_ctl _ _).trans hctl, ht.calls,
    ht.call, ht.result⟩

/-- Settles O58: the flags are the bits, and a byte is its bits. -/
theorem statusByteDecodesBitForBit : Obligations.StatusByteDecodesBitForBit := by
  refine ⟨fun b => rfl, fun b c h => ?_⟩
  simp only [decodeStatus, Status.mk.injEq] at h
  obtain ⟨h7, h6, h5, h4, h3, h2, h1, h0⟩ := h
  refine BitVec.eq_of_getLsbD_eq fun i hi => ?_
  interval_cases i <;> assumption

end Sys2Proof.Machine

/-! ## The scale factor and the scaled counts -/

namespace Sys2Proof.Machine

/-! ### The fields of a single-precision pattern (R103) -/

/-- A pattern from its sign, and its other 31 bits as a number: what `singleRound` answers (`singleRound_eq_singleOf`). -/
def singleOf (neg : Bool) (x : Nat) : Single := BitVec.ofNat 32 ((if neg then 2 ^ 31 else 0) + x)

theorem singleOf_toNat (neg : Bool) {x : Nat} (h : x < 2 ^ 31) :
    (singleOf neg x).toNat = (if neg then 2 ^ 31 else 0) + x := by
  rw [singleOf, BitVec.toNat_ofNat]
  cases neg <;> simp <;> omega

theorem getLsbD_singleOf (neg : Bool) {x i : Nat} (h : x < 2 ^ 31) (hi : i < 32) :
    (singleOf neg x).getLsbD i = if i < 31 then x.testBit i else neg := by
  have hbit := Nat.testBit_two_pow_mul_add neg.toNat h i
  have hsum : (if neg then 2 ^ 31 else 0) + x = 2 ^ 31 * neg.toNat + x := by cases neg <;> rfl
  rw [singleOf, BitVec.getLsbD_ofNat, decide_eq_true hi, Bool.true_and, hsum, hbit]
  split
  · rfl
  · have hlast : i = 31 := by omega
    subst hlast
    cases neg <;> rfl

theorem sign_singleOf (neg : Bool) {x : Nat} (h : x < 2 ^ 31) : (singleOf neg x).getLsbD 31 = neg :=
  getLsbD_singleOf neg h (by decide)

theorem exponent_singleOf (neg : Bool) {x : Nat} (h : x < 2 ^ 31) :
    ((singleOf neg x).extractLsb' 23 8).toNat = x / 2 ^ 23 := by
  rw [BitVec.extractLsb'_toNat, singleOf_toNat neg h, Nat.shiftRight_eq_div_pow]
  split <;> omega

theorem fraction_singleOf (neg : Bool) {x : Nat} (h : x < 2 ^ 31) :
    ((singleOf neg x).extractLsb' 0 23).toNat = x % 2 ^ 23 := by
  rw [BitVec.extractLsb'_toNat, singleOf_toNat neg h]
  split <;> omega

/-- A pattern is its sign, its exponent field and its fraction. -/
theorem eq_singleOf_fields (f : Single) :
    f = singleOf (f.getLsbD 31) ((f.extractLsb' 23 8).toNat * 2 ^ 23 + (f.extractLsb' 0 23).toNat) := by
  have hf := f.isLt
  have hexp := (f.extractLsb' 23 8).isLt
  have hfrac := (f.extractLsb' 0 23).isLt
  apply BitVec.eq_of_toNat_eq
  rw [singleOf_toNat _ (by omega), ← BitVec.msb_eq_getLsbD_last f, BitVec.msb_eq_decide]
  simp only [BitVec.extractLsb'_toNat, Nat.shiftRight_eq_div_pow, decide_eq_true_eq]
  split <;> omega

/-- A positive pattern whose exponent field is not the last lies before infinity's. -/
theorem toNat_lt_of_finite {f : Single} (hpos : f.getLsbD 31 = false) (hfinite : (f.extractLsb' 23 8).toNat ≠ 255) :
    f.toNat < 0x7F800000 := by
  have hexp := (f.extractLsb' 23 8).isLt
  have hfrac := (f.extractLsb' 0 23).isLt
  rw [eq_singleOf_fields f, hpos, singleOf_toNat _ (by omega), if_neg Bool.false_ne_true]
  omega

/-- The opposite sign is the first bit changed. -/
theorem singleOf_not (neg : Bool) {x : Nat} (h : x < 2 ^ 31) : singleOf (!neg) x = singleOf neg x ^^^ 0x80000000 := by
  refine BitVec.eq_of_getLsbD_eq fun i hi => ?_
  have hmask : (0x80000000 : Single) = BitVec.twoPow 32 31 := rfl
  rw [BitVec.getLsbD_xor, hmask, BitVec.getLsbD_twoPow, getLsbD_singleOf _ h hi, getLsbD_singleOf _ h hi]
  split
  · have hne : 31 ≠ i := by omega
    simp [hne]
  · have hlast : 31 = i := by omega
    subst hlast
    simp

/-! ### Rounding to nearest, ties to even (R106; log 17) -/

/-- What the model's rounding makes of a significand whose last `sh` bits are dropped. -/
def nearestEven (m sh : Nat) : Nat :=
  if m % 2 ^ sh > 2 ^ (sh - 1) || (m % 2 ^ sh = 2 ^ (sh - 1) && m / 2 ^ sh % 2 = 1) then m / 2 ^ sh + 1 else m / 2 ^ sh

theorem nearestEven_zero (m : Nat) : nearestEven m 0 = m := by simp [nearestEven, Nat.mod_one]

/-- The significand kept is within half a unit of the exact one. -/
theorem nearestEven_near (m sh : Nat) :
    2 * m ≤ 2 * (nearestEven m sh * 2 ^ sh) + 2 ^ sh ∧ 2 * (nearestEven m sh * 2 ^ sh) ≤ 2 * m + 2 ^ sh := by
  cases sh with
  | zero => rw [nearestEven_zero]; omega
  | succ k =>
    have hdiv := Nat.div_add_mod' m (2 ^ (k + 1))
    have hlt := Nat.mod_lt m (Nat.two_pow_pos (k + 1))
    have hpow : 2 ^ (k + 1) = 2 * 2 ^ k := Nat.pow_succ'
    unfold nearestEven
    split
    · next hup =>
      simp only [Nat.add_sub_cancel, gt_iff_lt, Bool.or_eq_true, decide_eq_true_eq, Bool.and_eq_true] at hup
      rw [Nat.add_mul]
      omega
    · next hdown =>
      simp only [Nat.add_sub_cancel, gt_iff_lt, Bool.or_eq_true, decide_eq_true_eq, Bool.and_eq_true, not_or] at hdown
      omega

theorem le_log2_of_normal {m : Nat} (h : 2 ^ 23 ≤ m) : 23 ≤ Nat.log2 m := (Nat.le_log2 (by omega)).2 h

/-- Of a significand of 24 bits or more, 24 bits are kept: the last one kept weighs at most a part in 2^23. -/
theorem two_pow_mul_dropped_le {m : Nat} (h : 2 ^ 23 ≤ m) : 2 ^ 23 * 2 ^ (Nat.log2 m - 23) ≤ m := by
  rw [← Nat.pow_add, Nat.add_sub_cancel' (le_log2_of_normal h)]
  exact Nat.log2_self_le (by omega)

/-- The significand kept has 24 bits, or is the one that a carry makes of them. -/
theorem nearestEven_range {m : Nat} (h : 2 ^ 23 ≤ m) :
    2 ^ 23 ≤ nearestEven m (Nat.log2 m - 23) ∧ nearestEven m (Nat.log2 m - 23) ≤ 2 ^ 24 := by
  have hlog := le_log2_of_normal h
  have hpos := Nat.two_pow_pos (Nat.log2 m - 23)
  have hlow := two_pow_mul_dropped_le h
  have hhigh : m < 2 ^ 24 * 2 ^ (Nat.log2 m - 23) := by
    rw [← Nat.pow_add, show 24 + (Nat.log2 m - 23) = Nat.log2 m + 1 by omega]
    exact Nat.lt_log2_self
  have hdiv : 2 ^ 23 ≤ m / 2 ^ (Nat.log2 m - 23) := (Nat.le_div_iff_mul_le hpos).2 hlow
  have hdiv' : m / 2 ^ (Nat.log2 m - 23) < 2 ^ 24 := (Nat.div_lt_iff_lt_mul hpos).2 hhigh
  unfold nearestEven
  split <;> omega

/-- The last of 24 bits kept is at most a 2^-23 part of the significand, and the rounding half of that off. -/
theorem nearestEven_relative {m : Nat} (h : 2 ^ 23 ≤ m) :
    |((nearestEven m (Nat.log2 m - 23) * 2 ^ (Nat.log2 m - 23) : Nat) : Rat) - m| ≤ m / 2 ^ 24 := by
  have hunit := two_pow_mul_dropped_le h
  obtain ⟨hbelow, habove⟩ := nearestEven_near m (Nat.log2 m - 23)
  generalize nearestEven m (Nat.log2 m - 23) * 2 ^ (Nat.log2 m - 23) = r at hbelow habove
  have hbelow' : 2 ^ 24 * m ≤ 2 ^ 24 * r + m := by omega
  have habove' : 2 ^ 24 * r ≤ 2 ^ 24 * m + m := by omega
  have hb : ((2 ^ 24 * m : Nat) : Rat) ≤ (2 ^ 24 * r + m : Nat) := Nat.cast_le.2 hbelow'
  have ha : ((2 ^ 24 * r : Nat) : Rat) ≤ (2 ^ 24 * m + m : Nat) := Nat.cast_le.2 habove'
  push_cast at hb ha
  rw [abs_le]
  constructor <;> linarith

/-- The sign is apart from the rounding: the other 31 bits do not depend on it. -/
theorem singleRound_eq_singleOf (m : Nat) (e : Int) :
    ∃ x ≤ 0x7F800000, ∀ neg, singleRound neg m e = singleOf neg x := by
  by_cases hm : m = 0
  · exact ⟨0, by decide, fun neg => by simp only [singleRound, if_pos hm]; rfl⟩
  · exact ⟨_, Nat.min_le_right _ _, fun neg => by simp only [singleRound, if_neg hm]; rfl⟩

/-- A significand of 24 bits or more and an exponent of at least the least one: the exponent field grows by the bits dropped, and
the significand's first bit counts in it. -/
theorem singleRound_of_normal (neg : Bool) {m : Nat} (h : 2 ^ 23 ≤ m) (k : Nat) :
    singleRound neg m ((k : Int) - 149) =
      singleOf neg (min ((Nat.log2 m - 23 + k) * 2 ^ 23 + nearestEven m (Nat.log2 m - 23)) 0x7F800000) := by
  have hlog := le_log2_of_normal h
  have hq : max ((Nat.log2 m : Int) + ((k : Int) - 149) - 23) (-149) = ((Nat.log2 m - 23 + k : Nat) : Int) - 149 := by
    omega
  have hfield : (((Nat.log2 m - 23 + k : Nat) : Int) - 149 + 149).toNat = Nat.log2 m - 23 + k := by omega
  have hdrop : (((Nat.log2 m - 23 + k : Nat) : Int) - 149 - ((k : Int) - 149)).toNat = Nat.log2 m - 23 := by omega
  simp only [singleRound, if_neg (show m ≠ 0 by omega), hq, hfield, hdrop]
  by_cases hexact : Nat.log2 m - 23 = 0
  · have hle : ((Nat.log2 m - 23 + k : Nat) : Int) - 149 ≤ (k : Int) - 149 := by omega
    have hshift : ((k : Int) - 149 - (((Nat.log2 m - 23 + k : Nat) : Int) - 149)).toNat = 0 := by omega
    rw [if_pos hle, hshift, Nat.pow_zero, Nat.mul_one, hexact, nearestEven_zero]
    rfl
  · have hlt : ¬((Nat.log2 m - 23 + k : Nat) : Int) - 149 ≤ (k : Int) - 149 := by omega
    rw [if_neg hlt]
    rfl

/-! ### The value of a pattern (R103, R106) -/

/-- The number a sign stands for. -/
def signValue (neg : Bool) : Rat := if neg then -1 else 1

theorem signValue_xor (a b : Bool) : signValue (xor a b) = signValue a * signValue b := by
  cases a <;> cases b <;> simp [signValue]

theorem abs_signValue (neg : Bool) : |signValue neg| = 1 := by cases neg <;> simp [signValue]

theorem cast_eq_signValue_mul_natAbs (i : Int) : (i : Rat) = signValue (decide (i < 0)) * i.natAbs := by
  rw [Nat.cast_natAbs, Int.cast_abs]
  by_cases h : i < 0
  · have hneg : (i : Rat) < 0 := Int.cast_lt_zero.2 h
    simp [signValue, h, abs_of_neg hneg]
  · have hnonneg : 0 ≤ (i : Rat) := Int.cast_nonneg (not_lt.1 h)
    simp [signValue, h, abs_of_nonneg hnonneg]

/-- A significand that may have carried into one bit more, in its place under an exponent field. -/
theorem singleValue_singleOf (neg : Bool) {k m : Nat} (hk : k ≤ 252) (hlow : 2 ^ 23 ≤ m) (hhigh : m ≤ 2 ^ 24) :
    singleValue (singleOf neg (k * 2 ^ 23 + m)) = signValue neg * (m * 2 ^ ((k : Int) - 149)) := by
  have hx : k * 2 ^ 23 + m < 2 ^ 31 := by omega
  have hnormal : (k * 2 ^ 23 + m) / 2 ^ 23 ≠ 0 := by omega
  rw [singleValue, sign_singleOf neg hx, exponent_singleOf neg hx, fraction_singleOf neg hx, if_neg hnormal]
  congr 1
  by_cases hcarry : m = 2 ^ 24
  · have hexp : (k * 2 ^ 23 + m) / 2 ^ 23 = k + 2 := by omega
    have hfrac : (k * 2 ^ 23 + m) % 2 ^ 23 = 0 := by omega
    have hpow : ((k + 2 : Nat) : Int) - 150 = (k : Int) - 149 + 1 := by omega
    rw [hexp, hfrac, hpow, hcarry, zpow_add_one₀ (by norm_num)]
    push_cast
    ring
  · have hexp : (k * 2 ^ 23 + m) / 2 ^ 23 = k + 1 := by omega
    have hfrac : (k * 2 ^ 23 + m) % 2 ^ 23 = m - 2 ^ 23 := by omega
    have hpow : ((k + 1 : Nat) : Int) - 150 = (k : Int) - 149 := by omega
    rw [hexp, hfrac, hpow, Nat.cast_sub hlow]
    push_cast
    ring

/-- The significand of a normal pattern, its first bit included. -/
def significand (f : Single) : Nat := (f.extractLsb' 0 23).toNat + 2 ^ 23

theorem significand_range (f : Single) : 2 ^ 23 ≤ significand f ∧ significand f < 2 ^ 24 := by
  have := (f.extractLsb' 0 23).isLt
  unfold significand
  omega

theorem singleValue_of_normal {f : Single} {k : Nat} (h : (f.extractLsb' 23 8).toNat = k + 1) :
    singleValue f = signValue (f.getLsbD 31) * (significand f * 2 ^ ((k : Int) - 149)) := by
  have hpow : ((k + 1 : Nat) : Int) - 150 = (k : Int) - 149 := by omega
  rw [singleValue, h, if_neg (Nat.succ_ne_zero k), hpow, significand]
  push_cast
  rw [add_comm]
  rfl

/-! ### The product (R103, R106; log 17) -/

/-- The product with a finite factor is a rounding whose sign is that of the count and the factor, and the rest their
magnitudes'. -/
theorem singleScale_eq_singleRound {f : Single} (h : (f.extractLsb' 23 8).toNat ≠ 255) :
    ∃ m e, ∀ i, singleScale i f = singleRound (xor (decide (i < 0)) (f.getLsbD 31)) (i.natAbs * m) e :=
  ⟨_, _, fun i => by rw [singleScale, if_neg h]⟩

theorem singleScale_of_normal (i : Int) {f : Single} {k : Nat} (h : (f.extractLsb' 23 8).toNat = k + 1) (hk : k ≤ 253) :
    singleScale i f =
      singleRound (xor (decide (i < 0)) (f.getLsbD 31)) (i.natAbs * significand f) ((k : Int) - 149) := by
  have hexp : ((k + 1 : Nat) : Int) - 150 = (k : Int) - 149 := by omega
  simp only [singleScale, h, if_neg (show ¬k + 1 = 255 by omega), if_neg (Nat.succ_ne_zero k), hexp, significand]

theorem singleScale_neg {i : Int} {f : Single} (h : (f.extractLsb' 23 8).toNat ≠ 255) (hi : i ≠ 0) :
    singleScale (-i) f = singleScale i f ^^^ 0x80000000 := by
  obtain ⟨m, e, hscale⟩ := singleScale_eq_singleRound h
  obtain ⟨x, hx, hround⟩ := singleRound_eq_singleOf (i.natAbs * m) e
  have hsign : xor (decide (-i < 0)) (f.getLsbD 31) = !xor (decide (i < 0)) (f.getLsbD 31) := by
    have hflip : decide (-i < 0) = !decide (i < 0) := by
      rw [← decide_not]
      exact decide_eq_decide.2 (by omega)
    rw [hflip, Bool.not_xor]
  rw [hscale, hscale, Int.natAbs_neg, hround, hround, hsign, singleOf_not _ (by omega)]

/-- A count of one gives a normal factor back: nothing is dropped. -/
theorem singleScale_one {f : Single} {k : Nat} (h : (f.extractLsb' 23 8).toNat = k + 1) (hk : k ≤ 253) :
    singleScale 1 f = f := by
  obtain ⟨hlow, hhigh⟩ := significand_range f
  have hlog : Nat.log2 (significand f) = 23 := (Nat.log2_eq_iff (by omega)).2 ⟨hlow, hhigh⟩
  have hsum : k * 2 ^ 23 + significand f = (k + 1) * 2 ^ 23 + (f.extractLsb' 0 23).toNat := by
    unfold significand
    ring
  have hmin : min (k * 2 ^ 23 + significand f) 0x7F800000 = k * 2 ^ 23 + significand f := by omega
  calc singleScale 1 f
      = singleRound (f.getLsbD 31) (significand f) ((k : Int) - 149) := by
        simp [singleScale_of_normal 1 h hk]
    _ = singleOf (f.getLsbD 31) (k * 2 ^ 23 + significand f) := by
        rw [singleRound_of_normal _ hlow, hlog, Nat.sub_self, Nat.zero_add, nearestEven_zero, hmin]
    _ = f := by rw [hsum, ← h, ← eq_singleOf_fields]

/-- The product of a 16-bit count with a normal factor too small to overflow: the exact one's sign, and its magnitude with all but
24 bits rounded off. -/
theorem singleValue_singleScale {i : Int} {f : Single} {k : Nat} (h : (f.extractLsb' 23 8).toNat = k + 1) (hk : k ≤ 237)
    (hi : i ≠ 0) (hrange : i.natAbs ≤ 2 ^ 15) :
    singleValue (singleScale i f) = signValue (xor (decide (i < 0)) (f.getLsbD 31)) *
      ((nearestEven (i.natAbs * significand f) (Nat.log2 (i.natAbs * significand f) - 23) *
        2 ^ (Nat.log2 (i.natAbs * significand f) - 23) : Nat) * 2 ^ ((k : Int) - 149)) := by
  obtain ⟨hlow, hhigh⟩ := significand_range f
  have hpos : 0 < i.natAbs := Int.natAbs_pos.2 hi
  rw [singleScale_of_normal i h (by omega)]
  generalize hn : i.natAbs * significand f = n
  have hnlow : 2 ^ 23 ≤ n := hn ▸ hlow.trans (Nat.le_mul_of_pos_left _ hpos)
  have hnhigh : n < 2 ^ 39 := by
    calc n = i.natAbs * significand f := hn.symm
      _ ≤ 2 ^ 15 * significand f := Nat.mul_le_mul_right _ hrange
      _ < 2 ^ 39 := by omega
  have hlog : Nat.log2 n < 39 := (Nat.log2_lt (by omega)).2 hnhigh
  obtain ⟨hmlow, hmhigh⟩ := nearestEven_range hnlow
  have hmin : min ((Nat.log2 n - 23 + k) * 2 ^ 23 + nearestEven n (Nat.log2 n - 23)) 0x7F800000 =
      (Nat.log2 n - 23 + k) * 2 ^ 23 + nearestEven n (Nat.log2 n - 23) := by omega
  rw [singleRound_of_normal _ hnlow, hmin, singleValue_singleOf _ (by omega) hmlow hmhigh]
  have hpow : (2 : Rat) ^ (((Nat.log2 n - 23 + k : Nat) : Int) - 149) = 2 ^ (Nat.log2 n - 23) * 2 ^ ((k : Int) - 149) := by
    rw [Nat.cast_add, add_sub_assoc, zpow_add₀ (by norm_num), zpow_natCast]
  rw [hpow]
  push_cast
  ring

/-- A sign and a scale change nothing of a relative error. -/
theorem relative_error_scaled (neg : Bool) {r n z : Rat} (hn : 0 ≤ n) (hz : 0 < z) (h : |r - n| ≤ n / 2 ^ 24) :
    |signValue neg * (r * z) - signValue neg * (n * z)| ≤ |signValue neg * (n * z)| / 2 ^ 24 := by
  have hsign := abs_signValue neg
  calc |signValue neg * (r * z) - signValue neg * (n * z)|
      = |r - n| * z := by rw [← mul_sub, ← sub_mul, abs_mul, hsign, one_mul, abs_mul, abs_of_pos hz]
    _ ≤ n / 2 ^ 24 * z := mul_le_mul_of_nonneg_right h hz.le
    _ = |signValue neg * (n * z)| / 2 ^ 24 := by
        rw [abs_mul, hsign, one_mul, abs_mul, abs_of_nonneg hn, abs_of_pos hz]
        ring

/-- The product is within half a unit in the last place of the count times the factor (R106). -/
theorem singleScale_near {i : Int} {f : Single} {k : Nat} (h : (f.extractLsb' 23 8).toNat = k + 1) (hk : k ≤ 237)
    (hi : i ≠ 0) (hrange : i.natAbs ≤ 2 ^ 15) :
    |singleValue (singleScale i f) - i * singleValue f| ≤ |i * singleValue f| / 2 ^ 24 := by
  obtain ⟨hlow, -⟩ := significand_range f
  have hn : 2 ^ 23 ≤ i.natAbs * significand f := hlow.trans (Nat.le_mul_of_pos_left _ (Int.natAbs_pos.2 hi))
  have hexact : (i : Rat) * singleValue f = signValue (xor (decide (i < 0)) (f.getLsbD 31)) *
      ((i.natAbs * significand f : Nat) * 2 ^ ((k : Int) - 149)) := by
    rw [singleValue_of_normal h, signValue_xor, cast_eq_signValue_mul_natAbs i]
    push_cast
    ring
  rw [singleValue_singleScale h hk hi hrange, hexact]
  exact relative_error_scaled _ (Nat.cast_nonneg _) (zpow_pos (by norm_num) _) (nearestEven_relative hn)

/-! ### The factor of Dps250 (R105; log 17) -/

/-- The factor's fields, wherever its evaluation errs. -/
theorem scaleFactor_dps250_fields : ∀ err < 17,
    (scaleFactor (35 / 4) err).getLsbD 31 = false ∧ ((scaleFactor (35 / 4) err).extractLsb' 23 8).toNat = 114 ∧
      10494580 ≤ significand (scaleFactor (35 / 4) err) ∧ significand (scaleFactor (35 / 4) err) ≤ 10494590 := by
  decide +kernel

/-- The formula's value in units of the factor's last place is near 10494584.88, and a tolerance of 1e-10 is more than six
units. -/
theorem near_radians_per_count {m : Nat} (hlow : 10494580 ≤ m) (hhigh : m ≤ 10494590) :
    |(m : ℝ) / 2 ^ 36 - 8.75 * 1e-3 * (Real.pi / 180)| ≤ 1e-10 := by
  have hl : (10494580 : ℝ) ≤ m := by exact_mod_cast hlow
  have hh : (m : ℝ) ≤ 10494590 := by exact_mod_cast hhigh
  have hpi := Real.pi_gt_d20
  have hpi' := Real.pi_lt_d20
  rw [abs_le]
  constructor <;> norm_num at hpi hpi' ⊢ <;> linarith

/-! ### The obligation -/

/-- Settles O60: the factor by its fields wherever its evaluation errs, and the product by its sign and its rounded magnitude. -/
theorem scaledCountIsOdd : Obligations.ScaledCountIsOdd := by
  refine ⟨?factor, fun i f hfinite => ⟨fun hpos => ?zero, singleScale_neg hfinite, fun hnormal => ?one,
    fun hi hlow hhigh hnormal hmax => ?near⟩⟩
  case factor =>
    obtain ⟨hsign, hexp, hlow, hhigh⟩ := scaleFactor_dps250_fields _ (Config.factorError .dps250).isLt
    refine ⟨hsign, hexp, ?_⟩
    rw [Nat.add_comm]
    exact near_radians_per_count hlow hhigh
  case zero => exact singleScale_zero (toNat_lt_of_finite hpos hfinite)
  case one =>
    have hexp := (f.extractLsb' 23 8).isLt
    exact singleScale_one (k := (f.extractLsb' 23 8).toNat - 1) (by omega) (by omega)
  case near =>
    exact singleScale_near (k := (f.extractLsb' 23 8).toNat - 1) (by omega) (by omega) hi (by omega)

end Sys2Proof.Machine

/-! ## The two contexts of the host and the data-ready interrupt -/

namespace Sys2Proof.Machine

/-! ### The work of the context that runs (R135) -/

/-- Of the host, the context that runs has changed its own record, the controller's state or the mask at most: the other
context's record, the place of execution and the interrupt request are as they were. -/
structure OwnWork (s t : State) : Prop where
  context : t.host.context = s.host.context
  irq : t.host.irq = s.host.irq
  others : ∀ c, c ≠ s.host.context → t.thread c = s.thread c

theorem ownWork_of_host_eq {s t : State} (h : t.host = s.host) : OwnWork s t :=
  ⟨by rw [h], by rw [h], fun c _ => thread_congr h c⟩

theorem OwnWork.refl (s : State) : OwnWork s s := ownWork_of_host_eq rfl

theorem OwnWork.trans {s t u : State} (h : OwnWork s t) (g : OwnWork t u) : OwnWork s u :=
  ⟨g.context.trans h.context, g.irq.trans h.irq,
    fun c hc => (g.others c (by rwa [h.context])).trans (h.others c hc)⟩

theorem ownWork_setThread {s : State} {c : Context} (h : c = s.host.context) (r : Thread) :
    OwnWork s (s.setThread c r) :=
  ⟨by simp, by simp, fun d hd => setThread_thread_other s c d r (h ▸ hd.symm)⟩

theorem ownWork_deliver {s : State} {c : Context} (h : c = s.host.context) (r : Result) : OwnWork s (s.deliver c r) :=
  ownWork_setThread h _

theorem ownWork_setCall (s : State) (c : Option CallStage) : OwnWork s (s.setCall c) := ownWork_setThread rfl _

theorem ownWork_popped (s : State) (rest : List Request) : OwnWork s (s.popped rest) := ownWork_setThread rfl _

theorem ownWork_ctl_irqOn (s : State) (ctl : ControllerState) (on : Bool) :
    OwnWork s { s with host := { s.host with ctl := ctl, irqOn := on } } :=
  ⟨rfl, rfl, fun c _ => by cases c <;> rfl⟩

theorem ownWork_finishCall (r : Result) (s : State) : OwnWork s (finishCall r s) :=
  (ownWork_setCall s none).trans (ownWork_deliver (by simp) r)

theorem ownWork_finishInit (r : InitResult) (s : State) : OwnWork s (finishInit r s) :=
  (ownWork_ctl_irqOn s _ s.host.irqOn).trans (ownWork_finishCall (.init r) _)

theorem Opened.ownWork {c : Caller} {bytes : List Byte} {mask : List Bool} {s t : State} (h : Opened c bytes mask s t) :
    OwnWork s t := ownWork_of_host_eq h.host

theorem exec_ownWork {i : Instr} {s t : State} (h : exec i s = .next t) : OwnWork s t := by
  rcases exec_next h with ⟨c, bytes, mask, hopen⟩ | ⟨-, -, rfl⟩ | ⟨-, -, rfl⟩ | ⟨b, o, u, -, -, hsend, rfl⟩ |
    ⟨o, u, -, -, hrecv, rfl⟩
  · exact hopen.ownWork
  · exact ownWork_of_host_eq rfl
  · exact ownWork_of_host_eq rfl
  · exact (ownWork_of_host_eq (attemptSend_busOnly hsend).host).trans (ownWork_deliver rfl _)
  · exact (ownWork_of_host_eq (attemptReceive_busOnly hrecv).host).trans (ownWork_deliver rfl _)

theorem continueCall_ownWork {stage : CallStage} {s t : State} (h : continueCall stage s = .next t) : OwnWork s t := by
  rcases continueCall_next h with ⟨r, rfl⟩ | ⟨r, rfl⟩ | ⟨c, mask, stage', u, hopen, rfl⟩
  · exact ownWork_finishInit r s
  · exact ownWork_finishCall r s
  · exact hopen.ownWork.trans (ownWork_setCall u _)

theorem makeRequest_ownWork {r : Request} {s t : State} (h : makeRequest r s = .next t) : OwnWork s t := by
  cases r with
  | frames bytes =>
    cases hdecode : decodeFrames bytes with
    | ok i => exact exec_ownWork ((runFrames_of_ok hdecode s).symm.trans h)
    | error e => cases (runFrames_of_error hdecode s).symm.trans h
  | op i => exact exec_ownWork h
  | call c =>
    rcases startCall_next h with ⟨cfg, -, -, rfl⟩ | ⟨c', mask, stage, u, -, hopen, rfl⟩
    · exact (ownWork_of_host_eq (configureSelect_host s)).trans (ownWork_setCall _ _)
    · exact hopen.ownWork.trans (ownWork_setCall u _)
  | setInterrupt on =>
    cases h
    exact ownWork_ctl_irqOn s s.host.ctl on

/-- A step of the host is the running context's own work, or the return of a handler that has nothing left to do. -/
theorem hostStep_ownWork {s t : State} (h : hostStep s = .next t) :
    OwnWork s t ∨ (s.host.context = .handler ∧ s.host.handler.todo = [] ∧ s.host.handler.call = none ∧
      t = leaveHandler s) := by
  unfold hostStep at h
  split at h
  · exact .inl (continueCall_ownWork h)
  · next hcall =>
    split at h
    · next htodo =>
      unfold outOfRequests at h
      split at h <;> cases h
      · exact .inl (.refl s)
      · next hcontext =>
        rw [hcontext] at hcall htodo
        exact .inr ⟨hcontext, htodo, hcall, rfl⟩
    · exact .inl ((ownWork_popped s _).trans (makeRequest_ownWork h))

/-- The sequencer works for the context that waits for the bus: the close returns its result to that context alone. -/
theorem sequencerStep_ownWork {s t : State} (hbus : waitsForBus s = true) (h : sequencerStep s = .next t) :
    OwnWork s t := by
  rcases sequencerStep_next h with ⟨i, b, o, u, -, -, hsend, hrow⟩ | ⟨i, kept, o, u, -, -, hrecv, hrow⟩ | ⟨i, -, hclose⟩
  · refine ownWork_of_host_eq (.trans ?_ (attemptSend_busOnly hsend).host)
    rcases hrow with ⟨-, rfl⟩ | ⟨-, rfl⟩ | ⟨k, -, rfl⟩ <;> rfl
  · refine ownWork_of_host_eq (.trans ?_ (attemptReceive_busOnly hrecv).host)
    rcases hrow with ⟨-, rfl⟩ | ⟨v, -, rfl⟩ | ⟨k, -, rfl⟩ <;> rfl
  · obtain ⟨-, rfl⟩ := closeTransaction_next hclose
    have howner : s.owner = s.host.context := by
      simp only [waitsForBus, Bool.and_eq_true, decide_eq_true_eq] at hbus
      exact hbus.2
    have hret := returnResult_returned (driveDeasserted s).release
    have hresult := returnResult_resultReturned (driveDeasserted s).release
    exact ⟨hret.context, hret.irq, fun c hc => (hresult.others c (howner ▸ hc)).trans (thread_congr rfl c)⟩

/-! ### The handler entered and left (R135) -/

theorem interruptTaken_iff {s : State} :
    interruptTaken s = true ↔ s.host.irqOn = true ∧ s.host.irq = true ∧ s.host.context = .ordinary := by
  simp [interruptTaken]

/-- The handler is not interrupted. -/
theorem interruptTaken_deviceMove_of_handler {s : State} (h : s.host.context = .handler) :
    interruptTaken (deviceMove s) = false := by
  simp [interruptTaken, (deviceMove_host s).1, h]

/-- After the device's move a step is the handler's start, the running context's own work, or the handler's return. -/
theorem step_ownWork {s t : State} (h : step s = .next t) :
    (interruptTaken (deviceMove s) = true ∧ t = enterHandler (deviceMove s)) ∨
    (interruptTaken (deviceMove s) = false ∧ OwnWork (deviceMove s) t) ∨
    (interruptTaken (deviceMove s) = false ∧ waitsForBus s = false ∧ s.host.handler.todo = [] ∧
      s.host.handler.call = none ∧ t = leaveHandler (deviceMove s)) := by
  rcases step_next h with hentered | ⟨hirq, hbus, hseq⟩ | ⟨hirq, hbus, hhost⟩
  · exact .inl hentered
  · exact .inr (.inl ⟨hirq, sequencerStep_ownWork hbus hseq⟩)
  · rcases hostStep_ownWork hhost with hown | ⟨-, htodo, hcall, rfl⟩
    · exact .inr (.inl ⟨hirq, hown⟩)
    · obtain ⟨-, -, hhandler, -⟩ := deviceMove_host s
      rw [hhandler] at htodo hcall
      exact .inr (.inr ⟨hirq, (deviceMove_waitsForBus s).symm.trans hbus, htodo, hcall, rfl⟩)

theorem step_eq_enterHandler {s : State} (h : interruptTaken (deviceMove s) = true) :
    step s = .next (enterHandler (deviceMove s)) := by
  simp [step, agentStep, h]

/-- A handler with nothing left to do returns. -/
theorem step_eq_leaveHandler {s : State} (hcontext : s.host.context = .handler) (hbus : waitsForBus s = false)
    (htodo : s.host.handler.todo = []) (hcall : s.host.handler.call = none) :
    step s = .next (leaveHandler (deviceMove s)) := by
  obtain ⟨hcontext', -, hhandler, -⟩ := deviceMove_host s
  simp [step, agentStep, hostStep, outOfRequests, interruptTaken_deviceMove_of_handler hcontext, hbus, hcontext',
    hcontext, State.thread, hhandler, htodo, hcall]

/-- While the handler runs, a transaction of the ordinary context is not the one the sequencer goes on with. -/
theorem waitsForBus_of_other {s : State} (hcontext : s.host.context = .handler) (howner : s.owner = .ordinary) :
    waitsForBus s = false := by
  simp [waitsForBus, hcontext, howner]

/-- A transaction of the other context stands still: past the device's own move only the host's records change. -/
theorem step_hostOnly_of_other {s t : State} (hcontext : s.host.context = .handler) (hbusy : s.busy = true)
    (howner : s.owner = .ordinary) (h : step s = .next t) : HostOnly (deviceMove s) t := by
  rcases step_next h with ⟨-, rfl⟩ | ⟨-, hbus, -⟩ | ⟨-, -, hhost⟩
  · exact hostOnly_host _ _
  · rw [deviceMove_waitsForBus, waitsForBus_of_other hcontext howner] at hbus
    cases hbus
  · exact hostStep_of_busy ((deviceMove_moved s).transactor.busy.trans hbusy) hhost

/-! ### The pending condition and the interrupt request (R134, R156; log 11) -/

/-- The condition sets by a free draw, under the oracle, with the elements on and the interrupt enabled. -/
theorem deviceMove_dataReady (s : State) :
    (deviceMove s).dev.dataReady =
      (s.dev.dataReady ||
        (decide (s.env = .oracle) && (s.dev.powered && (s.dev.drdyEnabled && Config.drawNewData s.draws)))) := by
  unfold deviceMove
  split
  · next hc =>
    obtain ⟨henv, hon, hena, hclear⟩ := hc
    split <;> next hdraw => simp [henv, hon, hena, hclear, hdraw]
  · next hc =>
    cases hready : s.dev.dataReady with
    | true => rfl
    | false =>
      refine (Bool.eq_false_iff.2 fun hsets => hc ?_).symm
      simp only [Bool.false_or, Bool.and_eq_true, decide_eq_true_eq] at hsets
      obtain ⟨henv, hon, hena, -⟩ := hsets
      exact ⟨henv, hon, hena, hready⟩

/-- The request is raised when the condition sets. -/
theorem deviceMove_irq (s : State) :
    (deviceMove s).host.irq = (s.host.irq || (!s.dev.dataReady && (deviceMove s).dev.dataReady)) := by
  unfold deviceMove
  split
  · next hc => split <;> simp [hc]
  · cases s.dev.dataReady <;> simp

/-- Past the device's own move the condition is not set: a frame clears it at most. -/
theorem DeviceEffect.dataReady {s t : State} (h : DeviceEffect s t) (hclear : s.dev.dataReady = false) :
    t.dev.dataReady = false := by
  rcases h with hun | ⟨b, hframe⟩
  · obtain ⟨phase, hdev⟩ := hun.device
    exact hdev ▸ hclear
  · exact hframe.sensor.dataReady.elim (·.trans hclear) And.left

/-- The request after a step: gone when the handler is entered, else what the device's move leaves. -/
theorem step_irq {s t : State} (h : step s = .next t) :
    t.host.irq = (!interruptTaken (deviceMove s) && (deviceMove s).host.irq) := by
  rcases step_ownWork h with ⟨hirq, rfl⟩ | ⟨hirq, hown⟩ | ⟨hirq, -, -, -, rfl⟩
  · simp [hirq]
  · simp [hirq, hown.irq]
  · simp [hirq]

/-! ### The obligations -/

/-- Settles O49: past the device's move the step is the handler's own work, which keeps the other context's record, or its
return; with the ordinary context's transaction in flight the sequencer has no turn. -/
theorem handlerRunsToItsEnd : Obligations.HandlerRunsToItsEnd := by
  refine ⟨fun s t hcontext h => ?_, fun s hcontext hbus htodo hcall => step_eq_leaveHandler hcontext hbus htodo hcall⟩
  have hm := deviceMove_moved s
  obtain ⟨hcontext', hordinary, -⟩ := deviceMove_host s
  have hstill (hbusy : s.busy = true) (howner : s.owner = .ordinary) :
      SameTransactor s t ∧ t.calls = s.calls ∧ t.per = s.per ∧ t.dev = (deviceMove s).dev :=
    have hhost := step_hostOnly_of_other hcontext hbusy howner h
    ⟨hm.transactor.trans hhost.transactor, hhost.calls.trans hm.calls, hhost.per.trans hm.per, hhost.dev⟩
  rcases step_ownWork h with ⟨hirq, -⟩ | ⟨-, hown⟩ | ⟨-, hbus, htodo, hcall, rfl⟩
  · rw [interruptTaken_deviceMove_of_handler hcontext] at hirq
    cases hirq
  · have hrecord : t.host.ordinary = (deviceMove s).host.ordinary :=
      hown.others .ordinary (by rw [hcontext', hcontext]; decide)
    exact ⟨hrecord.trans hordinary, hstill, .inl (hown.context.trans (hcontext'.trans hcontext))⟩
  · exact ⟨hordinary, hstill, .inr ⟨rfl, hbus, htodo, hcall⟩⟩

/-- Settles O50: only the device's move raises a request, when it sets the condition, and only the handler's start takes one
away. -/
theorem pendingConditionRaisesNoSecondInterrupt : Obligations.PendingConditionRaisesNoSecondInterrupt := by
  refine ⟨deviceMove_dataReady, fun s t h => ⟨fun hpending hirq => ?_, fun hclear hnone hstays => ?_, ?_⟩,
    fun s on rest hbus hirq hcall htodo => step_eq_makeRequest hcall htodo hbus hirq⟩
  · rw [step_irq h, deviceMove_of_dataReady hpending] at hirq
    exact (Bool.and_eq_true_iff.1 hirq).2
  · have hnottaken : interruptTaken (deviceMove s) = false := Bool.eq_false_iff.2 fun htaken => by
      obtain ⟨-, -, hcontext⟩ := interruptTaken_iff.1 htaken
      rw [step_eq_enterHandler htaken] at h
      cases h
      exact hstays ⟨(deviceMove_host s).1.symm.trans hcontext, rfl⟩
    rw [step_irq h, hnottaken, deviceMove_irq, hclear] at hnone
    have hnotset : (deviceMove s).dev.dataReady = false := (Bool.or_eq_false_iff.1 hnone).2
    exact (step_deviceEffect h).dataReady hnotset
  · rw [step_irq h, deviceMove_irq]

/-- Settles O48: the step is the device's move and the handler's start. -/
theorem handlerPreemptsBetweenSteps : Obligations.HandlerPreemptsBetweenSteps := by
  intro s h
  have hm := deviceMove_moved s
  have hentered : SameTransactor (deviceMove s) (enterHandler (deviceMove s)) := (hostOnly_host _ _).transactor
  refine ⟨_, step_eq_enterHandler h, ?_, hm.transactor.trans hentered, hm.calls, hm.per, hm.env, hm.script, hm.par,
    deviceMove_dev s⟩
  rw [enterHandler, hm.host]

end Sys2Proof.Machine

/-! ## The line before it is configured, and the idle block -/

namespace Sys2Proof.Machine

/-! ### Framing runs on EXCHANGE (R71, R86 to R91) -/

theorem openAccess_eq_openTransaction {s : State} {a n : Nat} (h : checkAccess s.par.maxLen a n = none) (c : Caller)
    (bytes : List Byte) (mask : List Bool) : openAccess c a n bytes mask s = openTransaction c bytes mask s := by
  simp only [openAccess, accessRefusal_eq_none.2 (checkAccess_eq_none.1 h)]

/-- An instruction that passes the checks of its operands is a primitive, or the EXCHANGE it runs on decides alone whether it is
admitted. -/
theorem exec_eq_openTransaction_or_primitive {s : State} {i : Instr} (h : i.check s.par.maxLen = none) :
    (∃ c bytes mask, exec i s = openTransaction c bytes mask s) ∨ i = .selectAssert ∨ i = .selectDeassert ∨
      (∃ b, i = .attemptSend b) ∨ i = .attemptReceive := by
  cases i with
  | selectAssert => exact .inr (.inl rfl)
  | selectDeassert => exact .inr (.inr (.inl rfl))
  | attemptSend b => exact .inr (.inr (.inr (.inl ⟨b, rfl⟩)))
  | attemptReceive => exact .inr (.inr (.inr (.inr rfl)))
  | exchange bytes mask => exact .inl ⟨.exchange, bytes, mask, rfl⟩
  | write a p => exact .inl ⟨_, _, _, openAccess_eq_openTransaction h _ _ _⟩
  | read a n => exact .inl ⟨_, _, _, openAccess_eq_openTransaction h _ _ _⟩
  | wr1 a p => exact .inl ⟨_, _, _, openAccess_eq_openTransaction h _ _ _⟩
  | rd1 a => exact .inl ⟨_, _, _, openAccess_eq_openTransaction h _ _ _⟩
  | wrm a ps =>
    obtain ⟨hlen, hcheck⟩ := check_multi_eq_none.1 h
    exact .inl ⟨_, _, _, (whenMulti_of_le hlen _).trans (openAccess_eq_openTransaction hcheck _ _ _)⟩
  | rdm a n =>
    obtain ⟨hlen, hcheck⟩ := check_multi_eq_none.1 h
    exact .inl ⟨_, _, _, (whenMulti_of_le hlen _).trans (openAccess_eq_openTransaction hcheck _ _ _)⟩

/-! ### The attempts under the oracle (R63, R64, R166) -/

theorem shownFlags_of_oracle {s : State} (h : s.env = .oracle) : shownFlags s = some (Config.drawFlags s.draws) := by
  simp only [shownFlags, h]

theorem shownByte_of_oracle {s : State} (h : s.env = .oracle) :
    shownByte s = some (Config.drawByte (s.draws + 1)) := by
  simp only [shownByte, h]

theorem frameTaken_of_oracle {s : State} (h : s.env = .oracle) : frameTaken s = true := by
  simp only [frameTaken, h]

theorem exec_attemptSend_answers_of_oracle {s : State} (b : Byte) (hbusy : s.busy = false) (henv : s.env = .oracle) :
    ∃ t, exec (.attemptSend b) s = .next t := by
  obtain ⟨-, hcompletes⟩ := attemptSendCompletes s b _ hbusy (shownFlags_of_oracle henv)
  obtain ⟨t, h, -⟩ := hcompletes fun _ => frameTaken_of_oracle henv
  exact ⟨t, h⟩

theorem exec_attemptReceive_answers_of_oracle {s : State} (hbusy : s.busy = false) (henv : s.env = .oracle) :
    ∃ t, exec .attemptReceive s = .next t := by
  obtain ⟨t, h, -⟩ :=
    attemptReceiveCompletes s _ _ hbusy (shownFlags_of_oracle henv) fun _ => shownByte_of_oracle henv
  exact ⟨t, h⟩

/-! ### The step of a context with nothing to ask for (R160) -/

/-- A step that neither takes an interrupt nor waits for the bus, with no call and no request left. -/
theorem step_eq_outOfRequests {s : State} (hcall : (s.thread s.host.context).call = none)
    (htodo : (s.thread s.host.context).todo = []) (hbus : waitsForBus s = false)
    (hirq : interruptTaken (deviceMove s) = false) : step s = outOfRequests (deviceMove s) := by
  have hmoved : (deviceMove s).thread (deviceMove s).host.context = s.thread s.host.context := by
    rw [deviceMove_thread, (deviceMove_host s).1]
  simp [step, agentStep, hostStep, hmoved, hcall, htodo, hbus, hirq]

/-- The device's own move is no request and no transaction. -/
theorem runEnded_deviceMove {s : State} (h : runEnded s) : runEnded (deviceMove s) := by
  have hm := (deviceMove_moved s).transactor
  obtain ⟨hcontext, hordinary, -⟩ := deviceMove_host s
  simpa only [runEnded, hcontext, hordinary, hm.busy, hm.seq, hm.sel] using h

/-- Where a run has ended, a step that no interrupt takes is the device's own move. -/
theorem step_of_runEnded {s : State} (h : runEnded s) (hirq : interruptTaken (deviceMove s) = false) :
    step s = .next (deviceMove s) := by
  obtain ⟨-, -, hcontext', -⟩ := runEnded_deviceMove h
  obtain ⟨htodo, hcall, hcontext, hidle, -⟩ := h
  rw [step_eq_outOfRequests (by rwa [hcontext]) (by rwa [hcontext]) (by simp [waitsForBus, hidle]) hirq, outOfRequests]
  simp only [hcontext']

/-! ### The obligations -/

/-- Settles O41: R72 asks for the configured line first, the select primitives ask for nothing else, and the attempts do not
ask for it. -/
theorem unconfiguredLineRefusesFraming : Obligations.UnconfiguredLineRefusesFraming := by
  intro s i hcfg hbusy hwf
  refine ⟨fun hsend hreceive => ?_, fun henv b hattempt => ?_⟩
  · rcases exec_eq_openTransaction_or_primitive (wellFormed_iff.1 hwf) with
      ⟨c, bytes, mask, hexec⟩ | rfl | rfl | ⟨b, rfl⟩ | rfl
    · exact hexec.trans (openTransaction_of_refusal (exchangeRefusal_of_unconfigured hcfg))
    · exact (exec_selectAssert_of_not_busy hbusy).trans (selectAssert_of_unconfigured hcfg)
    · exact (exec_selectDeassert_of_not_busy hbusy).trans (selectDeassert_of_unconfigured hcfg)
    · exact absurd rfl (hsend b)
    · exact absurd rfl hreceive
  · rcases hattempt with rfl | rfl
    · exact exec_attemptSend_answers_of_oracle b hbusy henv
    · exact exec_attemptReceive_answers_of_oracle hbusy henv

/-- Settles O47: the step is the device's own move, which the transactor and the log of calls do not see. -/
theorem idleBlockStaysIdle : Obligations.IdleBlockStaysIdle := by
  intro s h hirq
  have hm := deviceMove_moved s
  exact ⟨deviceMove s, step_of_runEnded h hirq, hm.transactor, hm.calls, runEnded_deviceMove h⟩

end Sys2Proof.Machine
